-- ==== Sys2Proof/Word.lean ====
section
/-! DEFINITION. The words of the CFV: the byte, the 12-bit command word, the 40-bit response data
(00_scope.md R6, R9), and the two closed sets of names an operand can be: a frame shape and a register
of the register space. -/

namespace Sys2Proof

/-- A byte, 8 bits, unsigned (00_scope.md section 9). -/
abbrev Byte := BitVec 8

/-- A command word, `CMD_BITS = 12` (00_scope.md R9, 30_encoding.md R70). -/
abbrev CmdWord := BitVec 12

/-- Response data, `DATA_BITS = 40` (00_scope.md R9, 42_readout.md R140). -/
abbrev Data := BitVec 40

/-- The two frame shapes (00_scope.md section 9, 10_state.md R20). -/
inductive Shape where
  /-- The gas frame: 4 data bytes and a checksum byte (20_memory.md R52). -/
  | gas5
  /-- The humidity and temperature frame: a status byte, 5 data bytes and a checksum byte (20_memory.md R54). -/
  | ht7
deriving DecidableEq, Repr

/-- The ten registers of the register space, by the names of 10_state.md R31. -/
inductive Reg where
  | stat | crc | crcExp | crcAct | raw32 | res | tvoc | sflags | hum | temp
deriving DecidableEq, Repr

end Sys2Proof
end

