-- ==== Sys2Proof/Config.lean ====
section
/-! DEFINITION. The parameters of the CFV: the fixed ones of 00_scope.md R9, and the type of the two open ones of
00_scope.md R10 (their value stands in `State.params`: notes/assumptions/1.md). -/

namespace Sys2Proof.Config

/-- `POLY`: x^8 + x^5 + x^4 + 1 without its x^8 term (00_scope.md R9). -/
def poly : Byte := 0x31#8

/-- `SEED`: the initial value of the checksum register (00_scope.md R9). -/
def seed : Byte := 0xFF#8

/-- `LEN(shape)`: the bytes of a frame, its checksum byte counted (00_scope.md R9). -/
def len : Shape → Nat
  | .gas5 => 5
  | .ht7 => 7

/-- `DLEN(shape) = LEN(shape) - 1`: the bytes the checksum covers (00_scope.md section 9). -/
def dlen (sh : Shape) : Nat := len sh - 1

/-- `RES_SCALE`: ohms per unit of raw32 (00_scope.md R9). -/
def resScale : Nat := 100

/-- `TVOC_MASK` (00_scope.md R9). -/
def tvocMask : BitVec 32 := 0x00FFFFFF#32

/-- The two open parameters, each the number of the one bit its mask has set, so that every value is one-hot
(00_scope.md R10, 92_eei_decisions.md D13). -/
structure Params where
  /-- The bit of `P_CAL_MASK`, the calibration-enabled flag of an HT7 status byte. -/
  calBit : Fin 8
  /-- The bit of `P_BUSY_MASK`, the busy flag. It changes no state transition. -/
  busyBit : Fin 8
deriving DecidableEq, Repr

/-- The defaults 0x08 and 0x80 of 00_scope.md R10. PRESUMED: the spec takes them from general knowledge. -/
def Params.default : Params := ⟨3, 7⟩

end Sys2Proof.Config
end

