-- ==== Sys2Proof/Syntax.lean ====
section
/-! DEFINITION. The instructions of the CFV: one constructor per row of spec/opcode_table.json. An operand is an
8-bit immediate or a shape, so no term of `Instr` has an operand that 30_encoding.md R72 forbids. -/

namespace Sys2Proof

/-- The commands of 30_encoding.md R73, `rd` once per register as the table has it. -/
inductive Instr where
  /-- `crc.init` (40_checksum.md R94). -/
  | crcInit
  /-- `crc.upd b` (40_checksum.md R95). -/
  | crcUpd (b : Byte)
  /-- `frm.open s` (41_frame.md R110). -/
  | frmOpen (sh : Shape)
  /-- `frm.push b` (41_frame.md R112). -/
  | frmPush (b : Byte)
  /-- `frm.abort` (41_frame.md R118). -/
  | frmAbort
  /-- `rd stat` (42_readout.md R142). -/
  | rdStat
  /-- `rd crc` (42_readout.md R143). -/
  | rdCrc
  /-- `rd crc_exp` (42_readout.md R151). -/
  | rdCrcExp
  /-- `rd crc_act` (42_readout.md R152). -/
  | rdCrcAct
  /-- `rd raw32` (42_readout.md R144). -/
  | rdRaw32
  /-- `rd res` (42_readout.md R145). -/
  | rdRes
  /-- `rd tvoc` (42_readout.md R146). -/
  | rdTvoc
  /-- `rd sflags` (42_readout.md R147). -/
  | rdSflags
  /-- `rd hum` (42_readout.md R148). -/
  | rdHum
  /-- `rd temp` (42_readout.md R149). -/
  | rdTemp
deriving DecidableEq, Repr

/-- The register an instruction reads, none for the five commands that are no `rd` (42_readout.md R141). -/
def Instr.reads : Instr → Option Reg
  | .crcInit => none
  | .crcUpd _ => none
  | .frmOpen _ => none
  | .frmPush _ => none
  | .frmAbort => none
  | .rdStat => some .stat
  | .rdCrc => some .crc
  | .rdCrcExp => some .crcExp
  | .rdCrcAct => some .crcAct
  | .rdRaw32 => some .raw32
  | .rdRes => some .res
  | .rdTvoc => some .tvoc
  | .rdSflags => some .sflags
  | .rdHum => some .hum
  | .rdTemp => some .temp

end Sys2Proof
end

