-- ==== Sys2Proof/Machine/Fields.lean ====
section
/-! DEFINITION. The two fields of a command word (30_encoding.md R70), and the `rd` instruction of each register. -/

namespace Sys2Proof

/-- `opc = cmd[11:8]` (30_encoding.md R70). -/
def opcOf (w : CmdWord) : BitVec 4 := w.extractLsb' 8 4

/-- `arg = cmd[7:0]` (30_encoding.md R70). -/
def argOf (w : CmdWord) : Byte := w.extractLsb' 0 8

/-- The `rd` instruction of a register, the inverse of `Instr.reads`. -/
def Instr.rd : Reg → Instr
  | .stat => .rdStat
  | .crc => .rdCrc
  | .crcExp => .rdCrcExp
  | .crcAct => .rdCrcAct
  | .raw32 => .rdRaw32
  | .res => .rdRes
  | .tvoc => .rdTvoc
  | .sflags => .rdSflags
  | .hum => .rdHum
  | .temp => .rdTemp

end Sys2Proof
end

