-- ==== Sys2Proof/Machine/Pseudo.lean ====
section
/-! DEFINITION. The pseudo-instructions of 30_encoding.md R82: each is a list of commands and has no encoding of
its own. -/

namespace Sys2Proof.Machine

/-- The six pseudo-instructions of 30_encoding.md R82. -/
inductive Pseudo where
  /-- `crc.sum b_0, ..., b_{n-1}`. -/
  | crcSum (bs : List Byte)
  /-- `frm.load s, b_0, ..., b_{L-1}`. -/
  | frmLoad (sh : Shape) (bs : List Byte)
  /-- `gas.res`. -/
  | gasRes
  /-- `gas.tvoc`. -/
  | gasTvoc
  /-- `ht.meas`. -/
  | htMeas
  /-- `frm.close`. -/
  | frmClose
deriving DecidableEq, Repr

/-- The commands a pseudo-instruction stands for, in order (30_encoding.md R82). -/
def expandPseudo : Pseudo → List Instr
  | .crcSum bs => .crcInit :: (bs.map .crcUpd ++ [.rdCrc])
  | .frmLoad sh bs => .frmOpen sh :: bs.map .frmPush
  | .gasRes => [.rdStat, .rdRes]
  | .gasTvoc => [.rdStat, .rdTvoc]
  | .htMeas => [.rdStat, .rdHum, .rdTemp]
  | .frmClose => [.frmAbort]

end Sys2Proof.Machine
end

