-- ==== Sys2Proof/WellFormed.lean ====
section
/-! DEFINITION. What is well formed: a command word by its opcode and operand kind (30_encoding.md R72, R73), a
pseudo-instruction by its operand list (R82), the open parameters (00_scope.md R10). A term of `Instr` carries its
operand checks in its types, so every one of them is well formed. -/

namespace Sys2Proof

/-- The four operand kinds of 30_encoding.md R72. -/
inductive ArgKind where
  | none | imm8 | shape | reg
deriving DecidableEq, Repr

/-- The legal values of `arg` for a kind, by the table of 30_encoding.md R72. -/
def ArgKind.legal : ArgKind → Byte → Bool
  | .none, arg => arg = 0x00#8
  | .imm8, _ => true
  | .shape, arg => arg ≤ 0x01#8
  | .reg, arg => arg ≤ 0x09#8

/-- The operand kind of an opcode, none for a reserved one, by the map of 30_encoding.md R73. -/
def opcKind (opc : BitVec 4) : Option ArgKind :=
  match opc.toNat with
  | 1 => some .none
  | 2 => some .imm8
  | 3 => some .shape
  | 4 => some .imm8
  | 5 => some .none
  | 6 => some .reg
  | _ => none

/-- A legal command word: its opcode is assigned and its operand is legal for that opcode (R72, R73). -/
def wordLegal (w : CmdWord) : Bool :=
  match opcKind (opcOf w) with
  | some k => k.legal (argOf w)
  | none => false

/-- `crc.sum` has at least one byte and `frm.load` exactly the bytes of its shape (30_encoding.md R82). -/
def pseudoWellFormed : Machine.Pseudo → Bool
  | .crcSum bs => bs ≠ []
  | .frmLoad sh bs => bs.length = Config.len sh
  | .gasRes => true
  | .gasTvoc => true
  | .htMeas => true
  | .frmClose => true

/-- The two masks are different (92_eei_decisions.md D13); that each is one-hot its type says. -/
def paramsWellFormed (p : Config.Params) : Bool := p.calBit ≠ p.busyBit

end Sys2Proof
end

