-- ==== Sys2Proof/Decode.lean ====
section
/-! DEFINITION. The decoder of 30_encoding.md R74, total on the 4096 words and rejecting by name (R78), and after
it the encoder, written from the opcode map (R73), with the rows of spec/opcode_table.json. -/

namespace Sys2Proof

/-- Why a word is illegal: the cases of 30_encoding.md R78, under four names. -/
inductive Illegal where
  /-- `opc = 0x0` or `opc` in 0x7 to 0xF. -/
  | reservedOpcode
  /-- `opc = 0x1` or `0x5` with `arg ≠ 0x00`. -/
  | operandNotZero
  /-- `opc = 0x3` with `arg ≥ 0x02`. -/
  | reservedShape
  /-- `opc = 0x6` with `arg ≥ 0x0A`. -/
  | reservedRegister
deriving DecidableEq, Repr

/-- The shape an operand names (30_encoding.md R72). -/
def decodeShape (arg : Byte) : Option Shape :=
  match arg.toNat with
  | 0 => some .gas5
  | 1 => some .ht7
  | _ => none

/-- The register a number names (10_state.md R31). -/
def decodeReg (arg : Byte) : Option Reg :=
  match arg.toNat with
  | 0 => some .stat
  | 1 => some .crc
  | 2 => some .crcExp
  | 3 => some .crcAct
  | 4 => some .raw32
  | 5 => some .res
  | 6 => some .tvoc
  | 7 => some .sflags
  | 8 => some .hum
  | 9 => some .temp
  | _ => none

/-- `decode` of 30_encoding.md R71 and R74: a function of the word alone. -/
def decode (w : CmdWord) : Except Illegal Instr :=
  match (opcOf w).toNat with
  | 1 => if argOf w = 0x00#8 then .ok .crcInit else .error .operandNotZero
  | 2 => .ok (.crcUpd (argOf w))
  | 3 => match decodeShape (argOf w) with
    | some sh => .ok (.frmOpen sh)
    | none => .error .reservedShape
  | 4 => .ok (.frmPush (argOf w))
  | 5 => if argOf w = 0x00#8 then .ok .frmAbort else .error .operandNotZero
  | 6 => match decodeReg (argOf w) with
    | some r => .ok (Instr.rd r)
    | none => .error .reservedRegister
  | _ => .error .reservedOpcode

/-- A word from its two fields (30_encoding.md R70). -/
def mkWord (opc : BitVec 4) (arg : Byte) : CmdWord := opc ++ arg

/-- The operand byte of a shape (30_encoding.md R72). -/
def encodeShape : Shape → Byte
  | .gas5 => 0x00#8
  | .ht7 => 0x01#8

/-- The register number (10_state.md R31). -/
def encodeReg : Reg → Byte
  | .stat => 0x00#8
  | .crc => 0x01#8
  | .crcExp => 0x02#8
  | .crcAct => 0x03#8
  | .raw32 => 0x04#8
  | .res => 0x05#8
  | .tvoc => 0x06#8
  | .sflags => 0x07#8
  | .hum => 0x08#8
  | .temp => 0x09#8

/-- The word of an instruction (30_encoding.md R73). -/
def encode : Instr → CmdWord
  | .crcInit => mkWord 0x1#4 0x00#8
  | .crcUpd b => mkWord 0x2#4 b
  | .frmOpen sh => mkWord 0x3#4 (encodeShape sh)
  | .frmPush b => mkWord 0x4#4 b
  | .frmAbort => mkWord 0x5#4 0x00#8
  | .rdStat => mkWord 0x6#4 (encodeReg .stat)
  | .rdCrc => mkWord 0x6#4 (encodeReg .crc)
  | .rdCrcExp => mkWord 0x6#4 (encodeReg .crcExp)
  | .rdCrcAct => mkWord 0x6#4 (encodeReg .crcAct)
  | .rdRaw32 => mkWord 0x6#4 (encodeReg .raw32)
  | .rdRes => mkWord 0x6#4 (encodeReg .res)
  | .rdTvoc => mkWord 0x6#4 (encodeReg .tvoc)
  | .rdSflags => mkWord 0x6#4 (encodeReg .sflags)
  | .rdHum => mkWord 0x6#4 (encodeReg .hum)
  | .rdTemp => mkWord 0x6#4 (encodeReg .temp)

/-- A row of the opcode table: the bits a word must have under the row's mask (30_encoding.md R73). -/
structure Row where
  pattern : CmdWord
  mask : CmdWord
deriving DecidableEq, Repr

/-- A word belongs to a row. -/
def Row.holds (r : Row) (w : CmdWord) : Bool := w &&& r.mask = r.pattern

/-- The row of an instruction: "match" and "mask" of spec/opcode_table.json. -/
def rowOf : Instr → Row
  | .crcInit => ⟨0x100#12, 0xFFF#12⟩
  | .crcUpd _ => ⟨0x200#12, 0xF00#12⟩
  | .frmOpen _ => ⟨0x300#12, 0xFFE#12⟩
  | .frmPush _ => ⟨0x400#12, 0xF00#12⟩
  | .frmAbort => ⟨0x500#12, 0xFFF#12⟩
  | .rdStat => ⟨0x600#12, 0xFFF#12⟩
  | .rdCrc => ⟨0x601#12, 0xFFF#12⟩
  | .rdCrcExp => ⟨0x602#12, 0xFFF#12⟩
  | .rdCrcAct => ⟨0x603#12, 0xFFF#12⟩
  | .rdRaw32 => ⟨0x604#12, 0xFFF#12⟩
  | .rdRes => ⟨0x605#12, 0xFFF#12⟩
  | .rdTvoc => ⟨0x606#12, 0xFFF#12⟩
  | .rdSflags => ⟨0x607#12, 0xFFF#12⟩
  | .rdHum => ⟨0x608#12, 0xFFF#12⟩
  | .rdTemp => ⟨0x609#12, 0xFFF#12⟩

/-- The fifteen rows, in the table's order. -/
def opcodeTable : List Row :=
  [.crcInit, .crcUpd 0, .frmOpen .gas5, .frmPush 0, .frmAbort].map rowOf ++
  [.rdStat, .rdCrc, .rdCrcExp, .rdCrcAct, .rdRaw32].map rowOf ++
  [.rdRes, .rdTvoc, .rdSflags, .rdHum, .rdTemp].map rowOf

/-- The command word that the low `nbits` bits of a table word are. The command port has 12 bits and no more
(notes/assumptions/8.md). -/
def wordOfTable (nbits w : Nat) : CmdWord := BitVec.ofNat 12 (w % 2 ^ nbits)

/-- The instruction the decoder reads from a word numbered as the opcode table numbers it. -/
def decodeTableWord (nbits w : Nat) : Option Instr :=
  match decode (wordOfTable nbits w) with
  | .ok i => some i
  | .error _ => none

end Sys2Proof
end

