-- ==== Sys2Proof/Machine/State.lean ====
section
/-! DEFINITION. The state of the CFV: the tuple of 10_state.md R20, the response port, and the model's own two
fields (the host's inputs and the open parameters), with the reasons a step can stop and the state after reset. -/

namespace Sys2Proof.Machine

open Sys2Proof

/-- The control state of the frame validator (10_state.md R20, R23). Code 3 has no term (notes/assumptions/7.md). -/
inductive Fsm where
  | idle | recv | done
deriving DecidableEq, Repr

/-- The latched verdict (10_state.md R20, R27). Code 3 has no term (notes/assumptions/7.md). -/
inductive Err where
  | none | checksum | uncal
deriving DecidableEq, Repr

/-- A response (00_scope.md R6, 42_readout.md R140). -/
structure Response where
  ok : Bool
  data : Data
deriving DecidableEq, Repr

/-- What the input pins hold at one rising edge of `clk` (00_scope.md R8). -/
structure PortIn where
  /-- `rst`, synchronous, active high. -/
  rst : Bool
  /-- `cmd_valid`. -/
  cmdValid : Bool
  /-- `cmd`, looked at only when `cmd_valid` is 1 and `rst` is 0. -/
  cmd : CmdWord
deriving DecidableEq, Repr

/-- The state. The first eight fields are every element of the table of 10_state.md R20, 74 bits. DESIGN CHOICE
(notes/assumptions/15.md): R20 gives a total of 79, which its table does not add up to; the model follows the table. -/
structure State where
  /-- `FSM`. -/
  fsm : Fsm
  /-- `SHAPE`. -/
  shape : Shape
  /-- `IDX`. -/
  idx : BitVec 3
  /-- `CRC`. -/
  crc : Byte
  /-- `BUF[0]` to `BUF[6]`, seven byte registers (10_state.md R22). -/
  buf : Vector Byte 7
  /-- `ERR`. -/
  err : Err
  /-- `FLT_ILL`. -/
  fltIll : Bool
  /-- `FLT_SEQ`. -/
  fltSeq : Bool
  /-- `rsp_ok` and `rsp_data`; `none` is `rsp_valid = 0` (00_scope.md R8). -/
  rsp : Option Response
  /-- The model's own: the open parameters of 00_scope.md R10, which no step changes (notes/assumptions/1.md). -/
  params : Config.Params
  /-- The model's own: what the host will present on the pins, the next edge first (notes/assumptions/2.md). -/
  pins : List PortIn
deriving DecidableEq, Repr

/-- Why a step faults. -/
inductive Fault where
  /-- Raised by `frm.push` in RECV with `IDX = 7`: `BUF[7]` does not exist. No state that a run from reset reaches
  has it (20_memory.md R58, 10_state.md R34). Safe: the model stops where the spec gives no effect. -/
  | noSuchBufferByte
deriving DecidableEq, Repr

/-- Why a step is refused by the model. (The CFV's own refusals are next states: 60_exceptions.md R184, R185.) -/
inductive Refusal where
  /-- Raised by an arm of `exec` whose instruction has no meaning yet. Safe: the model stops. No arm raises it. -/
  | notModelled (mnemonic : String)
deriving DecidableEq, Repr

/-- What an instruction ends in. -/
abbrev Outcome := Host.Outcome State Fault Refusal

/-- The state right after reset (10_state.md R35, 70_reset_and_hazards.md R210), no input presented yet, the open
parameters at their defaults (notes/assumptions/1.md, 2.md, 4.md). -/
def State.reset : State where
  fsm := .idle
  shape := .gas5
  idx := 0#3
  crc := 0xFF#8
  buf := Vector.replicate 7 0x00#8
  err := .none
  fltIll := false
  fltSeq := false
  rsp := none
  params := Config.Params.default
  pins := []

end Sys2Proof.Machine
end

