-- ==== Sys2Proof/Machine/Operands.lean ====
section
/-! DEFINITION. The operand forms: bytes of the frame buffer by index, the big-endian concatenation of several,
the parts of a byte, and the gates and values of the ten registers (42_readout.md R142 to R152). -/

namespace Sys2Proof.Machine

open Sys2Proof

/-- `BUF[i]` (10_state.md R22). The index type has no value that names no byte. -/
def bufByte (s : State) (i : Fin 7) : Byte := s.buf[i]

/-- `MemRead(addr, n)` as a number: the bytes from `addr` on, the lowest index most significant
(00_scope.md section 10, 20_memory.md R53). It is used with `addr + n ≤ 7` only. -/
def memRead (s : State) (addr n : Nat) : Nat :=
  ((s.buf.toList.drop addr).take n).foldl (fun acc b => acc * 256 + b.toNat) 0

/-- `DLEN(shape)`, the index of the checksum byte (20_memory.md R52, R54). -/
def checksumIndex : Shape → Fin 7
  | .gas5 => 4
  | .ht7 => 6

/-- `v[7:4]`. -/
def highNibble (b : Byte) : BitVec 4 := b.extractLsb' 4 4

/-- `v[3:0]`. -/
def lowNibble (b : Byte) : BitVec 4 := b.extractLsb' 0 4

/-- `zext_40` (00_scope.md section 10). -/
def zext40 (v : BitVec n) : Data := v.setWidth 40

/-- The code of FSM in `stat` (10_state.md R20). -/
def fsmCode : Fsm → BitVec 2
  | .idle => 0#2
  | .recv => 1#2
  | .done => 2#2

/-- The code of SHAPE in `stat` (10_state.md R20). -/
def shapeCode : Shape → BitVec 1
  | .gas5 => 0#1
  | .ht7 => 1#1

/-- The code of ERR in `stat` (10_state.md R20, R27). -/
def errCode : Err → BitVec 2
  | .none => 0#2
  | .checksum => 1#2
  | .uncal => 2#2

/-- `STAT`, ten bits, the most significant first (10_state.md R30, 42_readout.md R142). -/
def statWord (s : State) : BitVec 10 :=
  BitVec.ofBool s.fltSeq ++ BitVec.ofBool s.fltIll ++ errCode s.err ++ s.idx ++ shapeCode s.shape ++ fsmCode s.fsm

/-- `raw32`, big-endian (42_readout.md R144). -/
def raw32 (s : State) : BitVec 32 := bufByte s 0 ++ bufByte s 1 ++ bufByte s 2 ++ bufByte s 3

/-- `res`, the exact product in 39 bits (42_readout.md R145). -/
def resistance (s : State) : BitVec 39 := BitVec.ofNat 39 ((raw32 s).toNat * Config.resScale)

/-- `tvoc`, the low 24 bits of `raw32` (42_readout.md R146). -/
def tvoc (s : State) : BitVec 24 := (raw32 s &&& Config.tvocMask).setWidth 24

/-- `hum`: bytes 1 and 2 and the high nibble of byte 3 (42_readout.md R148). -/
def humidity (s : State) : BitVec 20 := bufByte s 1 ++ bufByte s 2 ++ highNibble (bufByte s 3)

/-- `temp`: the low nibble of byte 3 and bytes 4 and 5 (42_readout.md R149). -/
def temperature (s : State) : BitVec 20 := lowNibble (bufByte s 3) ++ bufByte s 4 ++ bufByte s 5

/-- The four gates of 42_readout.md R150. -/
inductive Gate where
  | always
  | done
  | acc (sh : Shape)
deriving DecidableEq, Repr

/-- Whether a gate is open (42_readout.md R150). -/
def gateOpen (g : Gate) (s : State) : Bool :=
  match g with
  | .always => true
  | .done => s.fsm = .done
  | .acc sh => s.fsm = .done ∧ s.err = .none ∧ s.shape = sh

/-- The gate of each register (42_readout.md R150). -/
def gateOf : Reg → Gate
  | .stat => .always
  | .crc => .always
  | .crcExp => .done
  | .crcAct => .done
  | .raw32 => .acc .gas5
  | .res => .acc .gas5
  | .tvoc => .acc .gas5
  | .sflags => .acc .ht7
  | .hum => .acc .ht7
  | .temp => .acc .ht7

/-- The value a register holds when its gate is open, zero-extended (42_readout.md R142 to R149, R151, R152). -/
def regValue : Reg → State → Data
  | .stat, s => zext40 (statWord s)
  | .crc, s => zext40 s.crc
  | .crcExp, s => zext40 s.crc
  | .crcAct, s => zext40 (bufByte s (checksumIndex s.shape))
  | .raw32, s => zext40 (raw32 s)
  | .res, s => zext40 (resistance s)
  | .tvoc, s => zext40 (tvoc s)
  | .sflags, s => zext40 (bufByte s 0)
  | .hum, s => zext40 (humidity s)
  | .temp, s => zext40 (temperature s)

/-- `x[r]`: the register's value, or none where its gate is closed (42_readout.md R140, R141). It changes nothing. -/
def readReg (r : Reg) (s : State) : Option Data :=
  if gateOpen (gateOf r) s then some (regValue r s) else none

end Sys2Proof.Machine
end

