-- ==== Sys2Proof/Machine/Flags.lean ====
section
/-! DEFINITION. The flags: the verdict of a finished frame (41_frame.md R114), the sticky fault bits
(10_state.md R28, R29) and the named flags of an HT7 status byte (10_state.md R33). -/

namespace Sys2Proof.Machine

open Sys2Proof

/-- `P_CAL_MASK`, one-hot (00_scope.md R10). -/
def calMask (p : Config.Params) : Byte := 1#8 <<< p.calBit.val

/-- `P_BUSY_MASK`, one-hot (00_scope.md R10). -/
def busyMask (p : Config.Params) : Byte := 1#8 <<< p.busyBit.val

/-- `verdict(SHAPE, BUF, CRC)`: the checksum first, then for HT7 the calibration flag (41_frame.md R114). -/
def verdict (s : State) : Err :=
  if s.crc ≠ bufByte s (checksumIndex s.shape) then .checksum
  else if s.shape = .ht7 ∧ bufByte s 0 &&& calMask s.params = 0x00#8 then .uncal
  else .none

/-- `FLT_ILL <- 1` (10_state.md R28). -/
def setFltIll (s : State) : State := { s with fltIll := true }

/-- `FLT_SEQ <- 1` (10_state.md R29). -/
def setFltSeq (s : State) : State := { s with fltSeq := true }

/-- The named flags of an HT7 status byte. The block consumes `calEnabled` alone, through `verdict`; the others are
labels of the bits of `sflags` for the consumer (10_state.md R33). -/
structure StatusFlags where
  busy : Bool
  mode : BitVec 2
  crcEnabled : Bool
  calEnabled : Bool
  fifoEnabled : Bool
  fifoFull : Bool
  fifoEmpty : Bool
deriving DecidableEq, Repr

/-- The flags of a status byte: busy and calibration-enabled by the two parameters, the others by the layout of
10_state.md R33 (PRESUMED, notes/assumptions/9.md). -/
def statusFlags (p : Config.Params) (b : Byte) : StatusFlags where
  busy := b &&& busyMask p ≠ 0x00#8
  mode := b.extractLsb' 5 2
  crcEnabled := b.getLsbD 4
  calEnabled := b &&& calMask p ≠ 0x00#8
  fifoEnabled := b.getLsbD 2
  fifoFull := b.getLsbD 1
  fifoEmpty := b.getLsbD 0

end Sys2Proof.Machine
end

