-- ==== Sys2Proof/Machine/Ops.lean ====
section
/-! DEFINITION. The named operations on the state: responding, refusing, storing a frame byte, seeding the frame
machinery, latching a verdict and leaving it, reset, an edge without a command, and taking the next input. -/

namespace Sys2Proof.Machine

open Sys2Proof

/-- `respond(ok, data)` (00_scope.md section 10). -/
def respond (ok : Bool) (data : Data) (s : State) : State := { s with rsp := some ⟨ok, data⟩ }

/-- An executed command other than `rd` (42_readout.md R140). -/
def complete (s : State) : Outcome := .next (respond true 0#40 s)

/-- `refuse ILL`: the sticky bit, the response {0, 0}, nothing else (60_exceptions.md R184). -/
def refuseIll (s : State) : Outcome := .next (respond false 0#40 (setFltIll s))

/-- `refuse SEQ`: the sticky bit, the response {0, 0}, nothing else (60_exceptions.md R185). -/
def refuseSeq (s : State) : Outcome := .next (respond false 0#40 (setFltSeq s))

/-- `rd r`: the register's value, or {0, 0} where it has none; no state is written (42_readout.md R141). -/
def execRd (r : Reg) (s : State) : Outcome :=
  match readReg r s with
  | some v => .next (respond true v s)
  | none => .next (respond false 0#40 s)

/-- `BUF[i] <- b` (20_memory.md R51). -/
def storeByte (i : Fin 7) (b : Byte) (s : State) : State := { s with buf := s.buf.set i b }

/-- `CRC <- c`. -/
def setCrc (c : Byte) (s : State) : State := { s with crc := c }

/-- `IDX <- IDX + 1` (10_state.md R25). -/
def advanceIdx (s : State) : State := { s with idx := s.idx + 1#3 }

/-- Taking a verdict error, or accepting: ERR takes the verdict and FSM becomes DONE; nothing else is saved, and
control goes nowhere (60_exceptions.md R188, R183). -/
def latchVerdict (s : State) : State := { s with err := verdict s, fsm := .done }

/-- All frame state at its start value, with FSM and SHAPE as given (41_frame.md R110, R118). -/
def seedFrame (f : Fsm) (sh : Shape) (s : State) : State :=
  { s with fsm := f, shape := sh, idx := 0#3, crc := Config.seed, buf := Vector.replicate 7 0x00#8, err := .none }

/-- Leaving a verdict, to the next frame (41_frame.md R110, 60_exceptions.md R189). -/
def openFrame (sh : Shape) (s : State) : State := seedFrame .recv sh s

/-- Leaving a verdict, to IDLE (41_frame.md R118, 60_exceptions.md R189). -/
def closeFrame (s : State) : State := seedFrame .idle .gas5 s

/-- Reset: every element of 10_state.md R20 takes its reset value and there is no response. The parameters and the
inputs to come are no state of the block and stay (70_reset_and_hazards.md R210, notes/assumptions/10.md). -/
def resetBlock (s : State) : State := { seedFrame .idle .gas5 s with fltIll := false, fltSeq := false, rsp := none }

/-- An edge with no command: nothing changes and no response follows (00_scope.md R5, R8). -/
def idleEdge (s : State) : State := { s with rsp := none }

/-- The pins at an edge at which the host presents nothing. -/
def noInput : PortIn := ⟨false, false, 0#12⟩

/-- The pins at an edge at which the host issues a word. -/
def commandInput (w : CmdWord) : PortIn := ⟨false, true, w⟩

/-- What the pins hold at the next edge. Where the list of inputs has ended the host presents nothing
(notes/assumptions/3.md). -/
def nextInput (s : State) : PortIn := s.pins.headD noInput

/-- The state with that input taken. -/
def takeInput (s : State) : State := { s with pins := s.pins.tail }

end Sys2Proof.Machine
end

