-- ==== Sys2Proof/Machine/Checksum.lean ====
section
/-! DEFINITION. The checksum engine (40_checksum.md): its functions, and the meanings of `crc.init` and `crc.upd`. -/

namespace Sys2Proof.Machine

open Sys2Proof

/-- One shift of the register: the bit tested is bit 7 before the shift, and the bit shifted out is dropped
(40_checksum.md R90). -/
def crcShift (c : Byte) : Byte := if c.getLsbD 7 then (c <<< 1) ^^^ Config.poly else c <<< 1

/-- `n` shifts. -/
def crcShifts : Nat → Byte → Byte
  | 0, c => c
  | n + 1, c => crcShifts n (crcShift c)

/-- `crc8_step(c, b)`: the byte enters unreflected, then eight shifts (40_checksum.md R90). -/
def crc8Step (c b : Byte) : Byte := crcShifts 8 (c ^^^ b)

/-- The register after a byte sequence, from a given start value (40_checksum.md R91). -/
def crc8From (c : Byte) (bs : List Byte) : Byte := bs.foldl crc8Step c

/-- `crc8(bytes)`: forward order, bytes unmodified, from the seed (40_checksum.md R91). -/
def crc8 (bs : List Byte) : Byte := crc8From Config.seed bs

/-- `crc.init` (40_checksum.md R94). -/
def execCrcInit (s : State) : Outcome :=
  if s.fsm ≠ .idle then refuseSeq s else complete (setCrc Config.seed s)

/-- `crc.upd b` (40_checksum.md R95). -/
def execCrcUpd (b : Byte) (s : State) : Outcome :=
  if s.fsm ≠ .idle then refuseSeq s else complete (setCrc (crc8Step s.crc b) s)

end Sys2Proof.Machine
end

