-- ==== Sys2Proof/Machine/Frame.lean ====
section
/-! DEFINITION. The frame validator (41_frame.md): the meanings of `frm.open`, `frm.push` and `frm.abort`. -/

namespace Sys2Proof.Machine

open Sys2Proof

/-- `frm.open s` (41_frame.md R110). -/
def execFrmOpen (sh : Shape) (s : State) : Outcome := complete (openFrame sh s)

/-- A data byte is folded into CRC, the checksum byte is not (41_frame.md R112, R113). -/
def foldByte (b : Byte) (s : State) : State :=
  if s.idx.toNat < Config.len s.shape - 1 then setCrc (crc8Step s.crc b) s else s

/-- The push that completes the frame latches the verdict in the same step (41_frame.md R112, R115). -/
def finishFrame (s : State) : State := if s.idx.toNat = Config.len s.shape then latchVerdict s else s

/-- What an executed push does with byte `b` at index `i` (41_frame.md R112). -/
def pushByte (i : Fin 7) (b : Byte) (s : State) : State := finishFrame (advanceIdx (foldByte b (storeByte i b s)))

/-- `frm.push b` (41_frame.md R112, R116). `IDX = 7` names no byte of the buffer (notes/assumptions/6.md). -/
def execFrmPush (b : Byte) (s : State) : Outcome :=
  if s.fsm ≠ .recv then refuseSeq s
  else if h : s.idx.toNat < 7 then complete (pushByte ⟨s.idx.toNat, h⟩ b s)
  else .fault .noSuchBufferByte

/-- `frm.abort` (41_frame.md R118). -/
def execFrmAbort (s : State) : Outcome := complete (closeFrame s)

end Sys2Proof.Machine
end

