-- ==== Sys2Proof/Machine/Readout.lean ====
section
/-! DEFINITION. Read-out (42_readout.md): the meanings of the ten `rd` commands, each the one operation `execRd`
(R141) on its register. -/

namespace Sys2Proof.Machine

open Sys2Proof

/-- `rd stat` (42_readout.md R142). -/
def execRdStat (s : State) : Outcome := execRd .stat s

/-- `rd crc` (42_readout.md R143). -/
def execRdCrc (s : State) : Outcome := execRd .crc s

/-- `rd crc_exp` (42_readout.md R151). -/
def execRdCrcExp (s : State) : Outcome := execRd .crcExp s

/-- `rd crc_act` (42_readout.md R152). -/
def execRdCrcAct (s : State) : Outcome := execRd .crcAct s

/-- `rd raw32` (42_readout.md R144). -/
def execRdRaw32 (s : State) : Outcome := execRd .raw32 s

/-- `rd res` (42_readout.md R145). -/
def execRdRes (s : State) : Outcome := execRd .res s

/-- `rd tvoc` (42_readout.md R146). -/
def execRdTvoc (s : State) : Outcome := execRd .tvoc s

/-- `rd sflags` (42_readout.md R147). -/
def execRdSflags (s : State) : Outcome := execRd .sflags s

/-- `rd hum` (42_readout.md R148). -/
def execRdHum (s : State) : Outcome := execRd .hum s

/-- `rd temp` (42_readout.md R149). -/
def execRdTemp (s : State) : Outcome := execRd .temp s

end Sys2Proof.Machine
end

