-- ==== Sys2Proof/Machine/Dispatch.lean ====
section
/-! DEFINITION. One arm per instruction. -/

namespace Sys2Proof.Machine

open Sys2Proof

def exec (i : Instr) (s : State) : Host.Outcome State Fault Refusal :=
  match i with
  | .crcInit => Sys2Proof.Machine.execCrcInit s
  | .crcUpd b => Sys2Proof.Machine.execCrcUpd b s
  | .frmOpen sh => Sys2Proof.Machine.execFrmOpen sh s
  | .frmPush b => Sys2Proof.Machine.execFrmPush b s
  | .frmAbort => Sys2Proof.Machine.execFrmAbort s
  | .rdStat => Sys2Proof.Machine.execRdStat s
  | .rdCrc => Sys2Proof.Machine.execRdCrc s
  | .rdCrcExp => Sys2Proof.Machine.execRdCrcExp s
  | .rdCrcAct => Sys2Proof.Machine.execRdCrcAct s
  | .rdRaw32 => Sys2Proof.Machine.execRdRaw32 s
  | .rdRes => Sys2Proof.Machine.execRdRes s
  | .rdTvoc => Sys2Proof.Machine.execRdTvoc s
  | .rdSflags => Sys2Proof.Machine.execRdSflags s
  | .rdHum => Sys2Proof.Machine.execRdHum s
  | .rdTemp => Sys2Proof.Machine.execRdTemp s

end Sys2Proof.Machine
end

