-- ==== Sys2Proof/Machine/Port.lean ====
section
/-! DEFINITION. The command port: one issued word (decode, then execute or refuse), one edge of the clock, and runs
as folds (20_memory.md R59). -/

namespace Sys2Proof.Machine

open Sys2Proof

/-- The spec's step on a command word: an illegal word is refused before anything else is looked at
(00_scope.md R6, 60_exceptions.md R187). -/
def issue (w : CmdWord) (s : State) : Outcome :=
  match decode w with
  | .ok i => exec i s
  | .error _ => refuseIll s

/-- One rising edge with the given pins: reset wins and drops a command presented with it (70_reset_and_hazards.md
R210); a valid command is issued; otherwise nothing happens (00_scope.md R5, R8). -/
def clockEdge (p : PortIn) (s : State) : Outcome :=
  if p.rst then .next (resetBlock s)
  else if p.cmdValid then issue p.cmd s
  else .next (idleEdge s)

/-- `f` and then, if it answers a next state, `g`. -/
def andThen (o : Outcome) (g : State → Outcome) : Outcome :=
  match o with
  | .next s => g s
  | .fault r => .fault r
  | .refused r => .refused r

/-- Instructions one after another (20_memory.md R59). -/
def execAll : List Instr → State → Outcome
  | [], s => .next s
  | i :: is, s => andThen (exec i s) (execAll is)

/-- Command words one after another: "a fold of the step function over the command list" (20_memory.md R59). -/
def issueAll : List CmdWord → State → Outcome
  | [], s => .next s
  | w :: ws, s => andThen (issue w s) (issueAll ws)

/-- The responses to a list of command words, in order, up to the first stop (00_scope.md R6). -/
def responsesTo : List CmdWord → State → List (Option Response)
  | [], _ => []
  | w :: ws, s =>
    match issue w s with
    | .next t => t.rsp :: responsesTo ws t
    | .fault _ => []
    | .refused _ => []

end Sys2Proof.Machine
end

