-- ==== Sys2Proof/Machine/Step.lean ====
section
/-! DEFINITION. The step: the next input is taken from the pins and the edge happens. -/

namespace Sys2Proof.Machine

open Sys2Proof

/-- One step of the machine (00_scope.md R5, R6, R8). -/
def step (s : State) : Host.Outcome State Fault Refusal := clockEdge (nextInput s) (takeInput s)

/-- `s` with the word presented on the command port at the next edge, before all inputs already listed. -/
def State.withFetchWord (s : State) (nbits w : Nat) : State :=
  { s with pins := commandInput (wordOfTable nbits w) :: s.pins }

end Sys2Proof.Machine
end

