-- ==== Sys2Proof/Machine/Consumer.lean ====
section
/-! DEFINITION. What the raw values mean to the consumer (42_readout.md R158, R159): exact rationals. The block does
not compute them. -/

namespace Sys2Proof.Machine

/-- Relative humidity in percent, `100 × hum / 2^20` (42_readout.md R158). -/
def relativeHumidity (hum : BitVec 20) : Rat := 100 * (hum.toNat : Rat) / 1048576

/-- Degrees Celsius, `200 × temp / 2^20 − 50` (42_readout.md R159). -/
def celsius (temp : BitVec 20) : Rat := 200 * (temp.toNat : Rat) / 1048576 - 50

end Sys2Proof.Machine
end

