-- ==== Sys2Proof/Safety.lean ====
section
/-! DEFINITION. What a good state is: the invariants of 10_state.md R34, and a run without a recorded fault
(00_scope.md R11). -/

namespace Sys2Proof.Machine

open Sys2Proof

/-- The bytes of the frame pushed so far, in order. -/
def pushedBytes (s : State) : List Byte := s.buf.toList.take s.idx.toNat

/-- The data bytes of a complete frame: all but its checksum byte (00_scope.md section 9). -/
def dataBytes (s : State) : List Byte := s.buf.toList.take (Config.dlen s.shape)

/-- 10_state.md R34 item 2. -/
abbrev InvIdle (s : State) : Prop :=
  s.fsm = .idle → s.idx = 0#3 ∧ s.shape = .gas5 ∧ s.err = .none ∧ ∀ i : Fin 7, bufByte s i = 0x00#8

/-- 10_state.md R34 item 3. -/
abbrev InvRecv (s : State) : Prop :=
  s.fsm = .recv → s.idx.toNat < Config.len s.shape ∧ s.err = .none ∧
    (∀ i : Fin 7, s.idx.toNat ≤ i.val → bufByte s i = 0x00#8) ∧ s.crc = crc8 (pushedBytes s)

/-- 10_state.md R34 item 4. -/
abbrev InvDone (s : State) : Prop :=
  s.fsm = .done → s.idx.toNat = Config.len s.shape ∧ s.crc = crc8 (dataBytes s) ∧ s.err = verdict s

/-- 10_state.md R34 item 5. -/
abbrev InvUncal (s : State) : Prop := s.err = .uncal → s.shape = .ht7

/-- In shape GAS5 the bytes 5 and 6 of the buffer stay 0x00 (10_state.md R22). -/
abbrev InvGasTail (s : State) : Prop := s.shape = .gas5 → bufByte s 5 = 0x00#8 ∧ bufByte s 6 = 0x00#8

/-- The invariant of every reachable state (10_state.md R34 items 2 to 5, R22; item 1 the types say, item 6 is about
two states). -/
abbrev StateInv (s : State) : Prop := InvIdle s ∧ InvRecv s ∧ InvDone s ∧ InvUncal s ∧ InvGasTail s

/-- No command of the run was refused (00_scope.md R11, 60_exceptions.md R186). -/
abbrev NoFaultRecorded (s : State) : Prop := s.fltIll = false ∧ s.fltSeq = false

/-- A frame was accepted (00_scope.md glossary, 42_readout.md R150). -/
abbrev Accepted (s : State) : Prop := s.fsm = .done ∧ s.err = .none

end Sys2Proof.Machine
end

