-- ==== Sys2Proof/Certificates/Slice0/Obligations.lean ====
section
/-! DEFINITION. The statements for the provers, each naming the rule of the spec it formalises. -/

open Sys2Proof Sys2Proof.Machine

/-! ### Encoding -/

/-- 30_encoding.md R71, R73, R74: a word decodes to an instruction exactly when it is that instruction's encoding, so
no bit of a legal word is dropped and no word has two meanings. -/
def Obligations.DecodeAndEncodeAgree : Prop :=
  ∀ (w : CmdWord) (i : Instr), decode w = .ok i ↔ encode i = w

/-- 30_encoding.md R73 and section 2.8 of 95_test_vectors.md: words written out from the map decode to the
instruction they stand for. -/
def Obligations.WrittenWordsDecode : Prop :=
  decode 0x100#12 = .ok .crcInit ∧ decode 0x2C3#12 = .ok (.crcUpd 0xC3#8) ∧
  decode 0x300#12 = .ok (.frmOpen .gas5) ∧ decode 0x301#12 = .ok (.frmOpen .ht7) ∧
  decode 0x4FF#12 = .ok (.frmPush 0xFF#8) ∧ decode 0x500#12 = .ok .frmAbort ∧
  decode 0x600#12 = .ok .rdStat ∧ decode 0x609#12 = .ok .rdTemp

/-- 30_encoding.md R74: the decoder is the pseudocode, branch by branch, for every word. -/
def Obligations.DecoderFollowsThePseudocode : Prop :=
  ∀ w : CmdWord,
    let opc := w.toNat / 256
    let arg := w.toNat % 256
    (opc = 0x1 ∧ arg = 0x00 → decode w = .ok .crcInit) ∧
    (opc = 0x2 → decode w = .ok (.crcUpd (BitVec.ofNat 8 arg))) ∧
    (opc = 0x3 ∧ arg = 0 → decode w = .ok (.frmOpen .gas5)) ∧
    (opc = 0x3 ∧ arg = 1 → decode w = .ok (.frmOpen .ht7)) ∧
    (opc = 0x4 → decode w = .ok (.frmPush (BitVec.ofNat 8 arg))) ∧
    (opc = 0x5 ∧ arg = 0x00 → decode w = .ok .frmAbort) ∧
    (opc = 0x6 ∧ arg = 0 → decode w = .ok .rdStat) ∧ (opc = 0x6 ∧ arg = 1 → decode w = .ok .rdCrc) ∧
    (opc = 0x6 ∧ arg = 2 → decode w = .ok .rdCrcExp) ∧ (opc = 0x6 ∧ arg = 3 → decode w = .ok .rdCrcAct) ∧
    (opc = 0x6 ∧ arg = 4 → decode w = .ok .rdRaw32) ∧ (opc = 0x6 ∧ arg = 5 → decode w = .ok .rdRes) ∧
    (opc = 0x6 ∧ arg = 6 → decode w = .ok .rdTvoc) ∧ (opc = 0x6 ∧ arg = 7 → decode w = .ok .rdSflags) ∧
    (opc = 0x6 ∧ arg = 8 → decode w = .ok .rdHum) ∧ (opc = 0x6 ∧ arg = 9 → decode w = .ok .rdTemp) ∧
    (¬(opc = 0x1 ∧ arg = 0x00) → opc ≠ 0x2 → ¬(opc = 0x3 ∧ arg ≤ 0x01) → opc ≠ 0x4 → ¬(opc = 0x5 ∧ arg = 0x00) →
      ¬(opc = 0x6 ∧ arg ≤ 0x09) → ∃ e, decode w = .error e)

/-- 30_encoding.md R72, R73: the decoder accepts exactly the words the operand kinds make legal; a legal word has
exactly one row of the opcode table and an illegal one none. -/
def Obligations.LegalWordsHaveExactlyOneRow : Prop :=
  ∀ w : CmdWord, (wordLegal w = true ↔ ∃ i, decode w = .ok i) ∧
    opcodeTable.countP (fun r => r.holds w) = if wordLegal w then 1 else 0

/-- 30_encoding.md R73: there are 526 legal words and 3570 illegal ones. -/
def Obligations.LegalWordsAreFiveHundredTwentySix : Prop :=
  (List.range 4096).countP (fun n => wordLegal (BitVec.ofNat 12 n)) = 526 ∧
  (List.range 4096).countP (fun n => !wordLegal (BitVec.ofNat 12 n)) = 3570

/-- 30_encoding.md R78, 60_exceptions.md R184: the illegal words are exactly the listed cases, the all-zeros and the
all-ones word among them, and every illegal word sets FLT_ILL, changes nothing else and answers {0, 0}. -/
def Obligations.IllegalWordsAreRefused : Prop :=
  (∀ w : CmdWord, (∃ e, decode w = .error e) ↔
    let opc := (opcOf w).toNat
    let arg := (argOf w).toNat
    opc = 0 ∨ 7 ≤ opc ∨ ((opc = 1 ∨ opc = 5) ∧ arg ≠ 0) ∨ (opc = 3 ∧ 2 ≤ arg) ∨ (opc = 6 ∧ 0x0A ≤ arg)) ∧
  (∃ e, decode 0x000#12 = .error e) ∧ (∃ e, decode 0xFFF#12 = .error e) ∧
  ∀ (w : CmdWord) (e : Illegal) (s : State), decode w = .error e →
    issue w s = .next { s with fltIll := true, rsp := some ⟨false, 0#40⟩ }

/-! ### The step -/

/-- 00_scope.md R6, R8, 30_encoding.md R71: at an edge with a valid command whose word decodes to `i` and no reset,
the step is `exec i`, with that input taken from the pins (notes/assumptions/2.md). -/
def Obligations.StepRunsTheDecodedInstruction : Prop :=
  ∀ (s : State) (p : PortIn) (rest : List PortIn) (i : Instr),
    s.pins = p :: rest → p.rst = false → p.cmdValid = true → decode p.cmd = .ok i →
      step s = exec i { s with pins := rest }

/-- 00_scope.md R5, R8: at an edge without a command and without reset, and where no input is left
(notes/assumptions/3.md), nothing changes but that no response follows. -/
def Obligations.EdgeWithoutCommandChangesNothing : Prop :=
  (∀ (s : State) (p : PortIn) (rest : List PortIn), s.pins = p :: rest → p.rst = false → p.cmdValid = false →
    step s = .next { s with pins := rest, rsp := none }) ∧
  ∀ s : State, s.pins = [] → step s = .next { s with rsp := none }

/-- 70_reset_and_hazards.md R210: with `rst = 1` at the edge, whatever `cmd_valid` and `cmd` are and whatever the state
is, every element takes its reset value and there is no response; at no other edge is a sticky fault bit cleared. -/
def Obligations.ResetEdgeGivesTheResetState : Prop :=
  (∀ (p : PortIn) (s : State), p.rst = true → ∃ t, clockEdge p s = .next t ∧
    t.fsm = .idle ∧ t.shape = .gas5 ∧ t.idx = 0#3 ∧ t.crc = 0xFF#8 ∧ (∀ i : Fin 7, bufByte t i = 0x00#8) ∧
    t.err = .none ∧ t.fltIll = false ∧ t.fltSeq = false ∧ t.rsp = none) ∧
  ∀ (p : PortIn) (s t : State), p.rst = false → clockEdge p s = .next t →
    (s.fltIll = true → t.fltIll = true) ∧ (s.fltSeq = true → t.fltSeq = true)

/-- 10_state.md R35: the reset values, and what `rd stat` and `rd crc` return straight after reset. -/
def Obligations.ResetValuesAsTheSpecGivesThem : Prop :=
  State.reset.fsm = .idle ∧ State.reset.shape = .gas5 ∧ State.reset.idx = 0#3 ∧ State.reset.crc = 0xFF#8 ∧
  (∀ i : Fin 7, bufByte State.reset i = 0x00#8) ∧ State.reset.err = .none ∧ State.reset.fltIll = false ∧
  State.reset.fltSeq = false ∧
  exec .rdStat State.reset = .next { State.reset with rsp := some ⟨true, 0x0000000000#40⟩ } ∧
  exec .rdCrc State.reset = .next { State.reset with rsp := some ⟨true, 0xFF#40⟩ }

/-- 20_memory.md R59, laid out as the model chose (notes/assumptions/2.md, 5.md: the commands stand in `pins`, one
edge each): a run of the machine over command words is the fold of the one-word step over the list. -/
def Obligations.RunIsTheFoldOverTheCommands : Prop :=
  ∀ (ws : List CmdWord) (rest : List PortIn) (s : State), s.pins = ws.map commandInput ++ rest →
    Sys2Proof.core.run ws.length s = issueAll ws { s with pins := rest }

/-- 00_scope.md R10 and notes/assumptions/1.md, 2.md: no step changes the open parameters, and a step takes exactly
one input. -/
def Obligations.StepKeepsParametersAndTakesOneInput : Prop :=
  ∀ s t : State, step s = .next t → t.params = s.params ∧ t.pins = s.pins.tail

/-! ### The checksum engine -/

/-- 40_checksum.md R94: `crc.init` in IDLE seeds CRC and changes nothing else; in RECV and DONE it is refused. It is
idempotent, and straight after reset it changes nothing but the response. -/
def Obligations.CrcInitSeedsInIdleElseRefused : Prop :=
  decode 0x100#12 = .ok .crcInit ∧
  (∀ s : State, s.fsm = .idle → exec .crcInit s = .next { s with crc := 0xFF#8, rsp := some ⟨true, 0#40⟩ }) ∧
  (∀ s : State, s.fsm ≠ .idle → exec .crcInit s = .next { s with fltSeq := true, rsp := some ⟨false, 0#40⟩ }) ∧
  exec .crcInit State.reset = .next { State.reset with rsp := some ⟨true, 0#40⟩ }

/-- 40_checksum.md R95: `crc.upd b` in IDLE folds `b` into CRC and changes nothing else; in RECV and DONE it is
refused. After `crc.init` and `crc.upd b_0` to `crc.upd b_{n-1}`, with any words interleaved that decode to no other
command that writes CRC (`rd` commands, refused pushes, illegal words), CRC is the checksum of the bytes (the spec
derives this clause), and nothing but the fault bits and the response has changed. -/
def Obligations.CrcUpdFoldsByteSequence : Prop :=
  (∀ b : Byte, decode (0x200#12 ||| b.setWidth 12) = .ok (.crcUpd b)) ∧
  (∀ (b : Byte) (s : State), s.fsm = .idle →
    exec (.crcUpd b) s = .next { s with crc := crc8Step s.crc b, rsp := some ⟨true, 0#40⟩ }) ∧
  (∀ (b : Byte) (s : State), s.fsm ≠ .idle →
    exec (.crcUpd b) s = .next { s with fltSeq := true, rsp := some ⟨false, 0#40⟩ }) ∧
  ∀ (bs : List Byte) (ws : List CmdWord) (s : State), s.fsm = .idle →
    ws.filter (fun w => opcOf w = 0x2#4 ∨ w ∈ [0x100#12, 0x300#12, 0x301#12, 0x500#12]) =
      0x100#12 :: bs.map (fun b => 0x200#12 ||| b.setWidth 12) →
    ∃ ill seq r, issueAll ws s = .next { s with crc := crc8 bs, fltIll := ill, fltSeq := seq, rsp := r }

/-- 30_encoding.md R82 with 40_checksum.md R91, R96: `crc.sum` issued in IDLE answers the checksum of its bytes; the
commands it would be for no byte at all answer the seed. -/
def Obligations.CrcSumAnswersTheChecksum : Prop :=
  (∀ (bs : List Byte) (s : State), s.fsm = .idle →
    execAll (expandPseudo (.crcSum bs)) s =
      .next { s with crc := crc8 bs, rsp := some ⟨true, (crc8 bs).setWidth 40⟩ }) ∧
  crc8 [] = 0xFF#8

/-- 40_checksum.md R93 item 2: the step is a bijection in the register and a bijection in the byte. -/
def Obligations.ChecksumStepIsBijective : Prop :=
  (∀ b : Byte, Function.Bijective (fun c => crc8Step c b)) ∧ (∀ c : Byte, Function.Bijective (fun b => crc8Step c b))

/-- 40_checksum.md R93 item 3: the checksum is affine; `crc8_0` is the checksum from seed 0x00. -/
def Obligations.ChecksumIsAffine : Prop :=
  ∀ m e : List Byte, m.length = e.length →
    crc8 (List.zipWith (fun x y => x ^^^ y) m e) = crc8 m ^^^ crc8From 0x00#8 e

/-- 40_checksum.md R93 item 4: flipping any one bit of the input always changes the checksum. -/
def Obligations.SingleBitFlipChangesChecksum : Prop :=
  ∀ (front back : List Byte) (b : Byte) (k : Fin 8),
    crc8 (front ++ (b ^^^ (1#8 <<< k.val)) :: back) ≠ crc8 (front ++ b :: back)

/-- 40_checksum.md R93 item 5: exactly one checksum byte fits the data bytes, and appending it drives the register to
zero. -/
def Obligations.AppendedChecksumGivesZero : Prop :=
  ∀ (d : List Byte) (k : Byte), crc8 (d ++ [k]) = 0x00#8 ↔ k = crc8 d

/-- 40_checksum.md R92 (b): the table form. -/
def Obligations.ChecksumStepIsTableLookup : Prop :=
  (∀ c b : Byte, crc8Step c b = crc8Step 0x00#8 (c ^^^ b)) ∧
  crc8Step 0x00#8 0x01#8 = 0x31#8 ∧ crc8Step 0x00#8 0x80#8 = 0x7A#8 ∧ crc8Step 0x00#8 0xFF#8 = 0xAC#8

/-- A byte as a polynomial over GF(2), bit `i` standing for x^i (40_checksum.md R92 (a)). -/
noncomputable def Sys2Proof.PolynomialForm.ofByte (b : Byte) : Polynomial (ZMod 2) :=
  ∑ i ∈ Finset.range 8, if b.getLsbD i then Polynomial.X ^ i else 0

/-- A message as a polynomial, the first byte in the highest coefficients (40_checksum.md R92 (a)). -/
noncomputable def Sys2Proof.PolynomialForm.ofMessage : List Byte → Polynomial (ZMod 2)
  | [] => 0
  | b :: bs => Sys2Proof.PolynomialForm.ofByte b * Polynomial.X ^ (8 * bs.length) + Sys2Proof.PolynomialForm.ofMessage bs

/-- The generator x^8 + x^5 + x^4 + 1 (40_checksum.md R90). -/
noncomputable def Sys2Proof.PolynomialForm.generator : Polynomial (ZMod 2) :=
  Polynomial.X ^ 8 + Polynomial.X ^ 5 + Polynomial.X ^ 4 + 1

/-- 40_checksum.md R92 (a): the shift-and-XOR procedure of R90 and R91 computes the remainder
`(M(x)·x^8 + 0xFF·x^(8n)) mod G(x)`. -/
def Obligations.ChecksumIsPolynomialRemainder : Prop :=
  ∀ bs : List Byte,
    Sys2Proof.PolynomialForm.ofByte (crc8 bs) =
      (Sys2Proof.PolynomialForm.ofMessage bs * Polynomial.X ^ 8 +
        Sys2Proof.PolynomialForm.ofByte 0xFF#8 * Polynomial.X ^ (8 * bs.length)) %ₘ
      Sys2Proof.PolynomialForm.generator

/-! ### The frame validator -/

/-- 41_frame.md R110: `frm.open s` in every state opens a frame of shape `s`, clears the buffer and the verdict, seeds
CRC, and touches nothing else. -/
def Obligations.FrmOpenStartsAFrame : Prop :=
  decode 0x300#12 = .ok (.frmOpen .gas5) ∧ decode 0x301#12 = .ok (.frmOpen .ht7) ∧
  ∀ (sh : Shape) (s : State), exec (.frmOpen sh) s =
    .next { s with fsm := .recv, shape := sh, idx := 0#3, crc := 0xFF#8, err := .none,
                   buf := #v[0x00#8, 0x00#8, 0x00#8, 0x00#8, 0x00#8, 0x00#8, 0x00#8], rsp := some ⟨true, 0#40⟩ }

/-- 41_frame.md R112, R116: `frm.push b` in RECV stores the byte at IDX and counts it; a data byte is folded into CRC;
the last byte is not, and latches the verdict, the checksum before the calibration flag, in the same step. In IDLE and
DONE it is refused. -/
def Obligations.FrmPushStoresFoldsAndLatches : Prop :=
  (∀ b : Byte, decode (0x400#12 ||| b.setWidth 12) = .ok (.frmPush b)) ∧
  ∀ (b : Byte) (s : State),
    (s.fsm ≠ .recv → exec (.frmPush b) s = .next { s with fltSeq := true, rsp := some ⟨false, 0#40⟩ }) ∧
    (∀ h : s.idx.toNat < 7, s.fsm = .recv → s.idx.toNat + 1 < Config.len s.shape →
      exec (.frmPush b) s =
        .next { s with buf := s.buf.set s.idx.toNat b h, crc := crc8Step s.crc b, idx := s.idx + 1#3,
                       rsp := some ⟨true, 0#40⟩ }) ∧
    (∀ h : s.idx.toNat < 7, s.fsm = .recv → s.idx.toNat + 1 = Config.len s.shape →
      exec (.frmPush b) s =
        .next { s with buf := s.buf.set s.idx.toNat b h, idx := s.idx + 1#3, fsm := .done,
                       err := if s.crc ≠ b then .checksum
                              else if s.shape = .ht7 ∧ bufByte s 0 &&& calMask s.params = 0x00#8 then .uncal
                              else .none,
                       rsp := some ⟨true, 0#40⟩ })

/-- The model's choice, notes/assumptions/6.md, for states no run from reset reaches: a push in RECV with IDX at or
beyond LEN stores and counts while IDX names a byte, and faults at IDX = 7. -/
def Obligations.PushBeyondTheFrame : Prop :=
  ∀ (b : Byte) (s : State), s.fsm = .recv → Config.len s.shape ≤ s.idx.toNat →
    (∀ h : s.idx.toNat < 7, exec (.frmPush b) s =
      .next { s with buf := s.buf.set s.idx.toNat b h, idx := s.idx + 1#3, rsp := some ⟨true, 0#40⟩ }) ∧
    (s.idx = 7#3 → exec (.frmPush b) s = .fault .noSuchBufferByte)

/-- 41_frame.md R114, 60_exceptions.md R187, 41_frame.md R117: the verdict, for both shapes and every parameter; a
wrong checksum with a clear calibration flag reports CHECKSUM, GAS5 never reports UNCAL, and where the busy flag
stands plays no part. -/
def Obligations.VerdictChecksumBeforeCalibration : Prop :=
  ∀ s : State,
    (s.shape = .gas5 → verdict s = if s.crc = bufByte s 4 then .none else .checksum) ∧
    (s.shape = .ht7 → s.crc ≠ bufByte s 6 → verdict s = .checksum) ∧
    (s.shape = .ht7 → s.crc = bufByte s 6 → (bufByte s 0).getLsbD s.params.calBit.val = false → verdict s = .uncal) ∧
    (s.shape = .ht7 → s.crc = bufByte s 6 → (bufByte s 0).getLsbD s.params.calBit.val = true → verdict s = .none)

/-- 41_frame.md R118: `frm.abort` from any state gives the reset state up to the two fault bits, which keep their
values. -/
def Obligations.FrmAbortGivesResetStateButFaults : Prop :=
  decode 0x500#12 = .ok .frmAbort ∧
  ∀ s : State, exec .frmAbort s =
    .next { State.reset with fltIll := s.fltIll, fltSeq := s.fltSeq, params := s.params, pins := s.pins,
                             rsp := some ⟨true, 0#40⟩ }

/-- 41_frame.md R121 (the spec derives it): acceptance. From any state, `frm.open s`, then the LEN(s) bytes of a frame pushed, with any
`rd` commands interleaved and no other command, ends in DONE with the bytes in the buffer, the checksum of the data
bytes in CRC, and the verdict as the frame deserves; the fault bits are as before. -/
def Obligations.FrameAcceptance : Prop :=
  ∀ (s : State) (sh : Shape) (bs : List Byte) (cs : List Instr),
    bs.length = Config.len sh → cs.filter (fun i => i.reads.isNone) = bs.map .frmPush →
    ∃ t, execAll (.frmOpen sh :: cs) s = .next t ∧
      t.fsm = .done ∧ t.idx.toNat = Config.len sh ∧ t.shape = sh ∧ t.buf.toList.take (Config.len sh) = bs ∧
      t.crc = crc8 (bs.take (Config.len sh - 1)) ∧
      (t.err = .checksum ↔ crc8 (bs.take (Config.len sh - 1)) ≠ bs.getD (Config.len sh - 1) 0#8) ∧
      (t.err = .uncal ↔ sh = .ht7 ∧ crc8 (bs.take 6) = bs.getD 6 0#8 ∧ bs.getD 0 0#8 &&& calMask s.params = 0x00#8) ∧
      t.fltIll = s.fltIll ∧ t.fltSeq = s.fltSeq ∧ t.params = s.params

/-- 41_frame.md R122 (the spec derives it): the round trip. Of the frames `21 02 03 76 k`, the one with `k = 0xC3` is accepted and every
other reports CHECKSUM with expected 0xC3 and actual `k`. -/
def Obligations.GasFrameRoundTrip : Prop :=
  crc8 [0x21#8, 0x02#8, 0x03#8, 0x76#8] = 0xC3#8 ∧
  ∀ (s : State) (k : Byte), ∃ t,
    execAll (expandPseudo (.frmLoad .gas5 [0x21#8, 0x02#8, 0x03#8, 0x76#8, k])) s = .next t ∧ t.fsm = .done ∧
    t.err = (if k = 0xC3#8 then .none else .checksum) ∧
    readReg .crcExp t = some 0xC3#40 ∧ readReg .crcAct t = some (k.setWidth 40)

/-- 41_frame.md R115 (the spec derives it): the push that completes a frame latches the verdict in its own step; no
other command changes ERR but `frm.open` and `frm.abort`, which clear it as reset does; in DONE no other word changes
the verdict, the buffer, CRC, SHAPE, IDX or FSM. -/
def Obligations.VerdictIsFixedUntilOpenOrAbort : Prop :=
  (∀ (w : CmdWord) (s t : State), issue w s = .next t → t.err ≠ s.err →
    (t.err = .none ∧ ((∃ sh, decode w = .ok (.frmOpen sh)) ∨ decode w = .ok .frmAbort)) ∨
    (s.fsm = .recv ∧ t.fsm = .done ∧ t.err = verdict t ∧ ∃ b, decode w = .ok (.frmPush b))) ∧
  (∀ (w : CmdWord) (b : Byte) (s t : State), issue w s = .next t → decode w = .ok (.frmPush b) → s.fsm = .recv →
    s.idx.toNat + 1 = Config.len s.shape → t.fsm = .done ∧ t.err = verdict t) ∧
  (∀ (p : PortIn) (s t : State), p.rst = true → clockEdge p s = .next t → t.err = .none) ∧
  ∀ (w : CmdWord) (s t : State), s.fsm = .done → issue w s = .next t →
    (∀ sh, decode w ≠ .ok (.frmOpen sh)) → decode w ≠ .ok .frmAbort →
    t.fsm = .done ∧ t.err = s.err ∧ t.buf = s.buf ∧ t.crc = s.crc ∧ t.shape = s.shape ∧ t.idx = s.idx

/-- Laws list of 95_test_vectors.md, item 9 (40_checksum.md R93 item 4 with 41_frame.md R114): flipping any one bit of
an accepted frame, in a data byte or in the checksum byte, gives a frame whose verdict is CHECKSUM. -/
def Obligations.FlippedBitOfAcceptedFrameIsCaught : Prop :=
  ∀ (s s' t : State) (sh : Shape) (bs : List Byte) (k : Nat) (j : Fin 8),
    bs.length = Config.len sh → k < Config.len sh →
    execAll (expandPseudo (.frmLoad sh bs)) s = .next t → Accepted t →
    ∃ t', execAll (expandPseudo (.frmLoad sh (bs.modify k (fun b => b ^^^ (1#8 <<< j.val))))) s' = .next t' ∧
      t'.fsm = .done ∧ t'.err = .checksum

/-- 41_frame.md R110: after `frm.open` the block depends on nothing earlier but the two sticky fault bits: from two
states that agree on those (and on the parameters), every list of words gives the same responses. -/
def Obligations.OpenedFrameForgetsThePast : Prop :=
  ∀ (s t : State) (sh : Shape) (ws : List CmdWord), s.fltIll = t.fltIll → s.fltSeq = t.fltSeq → s.params = t.params →
    responsesTo (encode (.frmOpen sh) :: ws) s = responsesTo (encode (.frmOpen sh) :: ws) t

/-- 42_readout.md R150 ("discards the entire frame rather than returning partially decoded fields"): two rejected
frames that differ in their data bytes alone, with the same two checksums, cannot be told apart by any list of
words. -/
def Obligations.RejectedFrameRevealsNoData : Prop :=
  ∀ (s t : State) (b : Vector Byte 7) (ws : List CmdWord), s.fsm = .done → s.err ≠ .none → t = { s with buf := b } →
    bufByte s (checksumIndex s.shape) = bufByte t (checksumIndex s.shape) →
    responsesTo ws s = responsesTo ws t

/-! ### Read-out -/

/-- 42_readout.md R150: the gate of every register, exactly. -/
def Obligations.GatesExactlyAsListed : Prop :=
  ∀ s : State,
    (∀ r ∈ [Reg.stat, .crc], readReg r s ≠ none) ∧
    (∀ r ∈ [Reg.crcExp, .crcAct], readReg r s ≠ none ↔ s.fsm = .done) ∧
    (∀ r ∈ [Reg.raw32, .res, .tvoc], readReg r s ≠ none ↔ s.fsm = .done ∧ s.err = .none ∧ s.shape = .gas5) ∧
    (∀ r ∈ [Reg.sflags, .hum, .temp], readReg r s ≠ none ↔ s.fsm = .done ∧ s.err = .none ∧ s.shape = .ht7)

/-- 42_readout.md R140: every word is answered. A word that is no `rd` answers data 0, with ok exactly when it is a
legal command that is not refused (in which case no fault bit changes); an `rd` answers its register's value, or
{0, 0} where the register has none. -/
def Obligations.EveryWordIsAnswered : Prop :=
  ∀ (w : CmdWord) (s t : State), issue w s = .next t → ∃ a, t.rsp = some a ∧
    ((∀ r, decode w ≠ .ok (Instr.rd r)) → a.data = 0#40 ∧
      (a.ok = true → t.fltIll = s.fltIll ∧ t.fltSeq = s.fltSeq) ∧
      (a.ok = false ↔ t = { s with fltIll := true, rsp := some ⟨false, 0#40⟩ } ∧ (∃ e, decode w = .error e) ∨
        t = { s with fltSeq := true, rsp := some ⟨false, 0#40⟩ } ∧ ∃ i, decode w = .ok i ∧
          ((i = .crcInit ∨ ∃ b, i = .crcUpd b) ∧ s.fsm ≠ .idle ∨ (∃ b, i = .frmPush b) ∧ s.fsm ≠ .recv))) ∧
    ∀ r, decode w = .ok (Instr.rd r) →
      (∀ v, readReg r s = some v → a = ⟨true, v⟩) ∧ (readReg r s = none → a = ⟨false, 0#40⟩)

/-- 42_readout.md R142, R143, 10_state.md R20, R30: `rd stat` and `rd crc` answer in every state; the fields of `stat`
stand at their bits, with IDLE 0, RECV 1, DONE 2; GAS5 0, HT7 1; NONE 0, CHECKSUM 1, UNCAL 2. Nothing but the response
changes. -/
def Obligations.StatAndCrcAlwaysReadable : Prop :=
  ∀ s : State,
    let fsm := match s.fsm with | .idle => 0 | .recv => 1 | .done => 2
    let shape := match s.shape with | .gas5 => 0 | .ht7 => 1
    let err := match s.err with | .none => 0 | .checksum => 1 | .uncal => 2
    exec .rdStat s =
      .next { s with rsp := some ⟨true, BitVec.ofNat 40 (fsm + 4 * shape + 8 * s.idx.toNat + 64 * err +
        256 * s.fltIll.toNat + 512 * s.fltSeq.toNat)⟩ } ∧
    exec .rdCrc s = .next { s with rsp := some ⟨true, BitVec.ofNat 40 s.crc.toNat⟩ }

/-- 42_readout.md R151, R152: the two checksum diagnostics, readable in DONE whatever the verdict; {0, 0} in any other
state. Nothing but the response changes. In DONE the expected checksum is that of the data bytes, and the two differ
exactly under CHECKSUM, as the spec derives (`StateInv`, an invariant of the model, rules out states no run
reaches). -/
def Obligations.ChecksumDiagnosticsReadableInDone : Prop :=
  ∀ s : State,
    (s.fsm = .done →
      exec .rdCrcExp s = .next { s with rsp := some ⟨true, BitVec.ofNat 40 s.crc.toNat⟩ } ∧
      (s.shape = .gas5 → exec .rdCrcAct s = .next { s with rsp := some ⟨true, BitVec.ofNat 40 (bufByte s 4).toNat⟩ }) ∧
      (s.shape = .ht7 → exec .rdCrcAct s = .next { s with rsp := some ⟨true, BitVec.ofNat 40 (bufByte s 6).toNat⟩ })) ∧
    (s.fsm ≠ .done →
      exec .rdCrcExp s = .next { s with rsp := some ⟨false, 0#40⟩ } ∧
      exec .rdCrcAct s = .next { s with rsp := some ⟨false, 0#40⟩ }) ∧
    (StateInv s → s.fsm = .done → s.crc = crc8 (s.buf.toList.take (Config.len s.shape - 1)) ∧
      (readReg .crcExp s = readReg .crcAct s ↔ s.err ≠ .checksum))

/-- 42_readout.md R144, R145, R146 with the gate ACC(GAS5) of R150: the gas fields of an accepted GAS5 frame, the
resistance exact and below 2^39; {0, 0} in any other state. Nothing but the response changes. -/
def Obligations.GasFieldsOfAcceptedFrame : Prop :=
  ∀ s : State,
    let raw := (bufByte s 0).toNat * 2 ^ 24 + (bufByte s 1).toNat * 2 ^ 16 + (bufByte s 2).toNat * 2 ^ 8 +
      (bufByte s 3).toNat
    (s.fsm = .done ∧ s.err = .none ∧ s.shape = .gas5 →
      exec .rdRaw32 s = .next { s with rsp := some ⟨true, BitVec.ofNat 40 raw⟩ } ∧
      exec .rdRes s = .next { s with rsp := some ⟨true, BitVec.ofNat 40 (raw * 100)⟩ } ∧
      exec .rdTvoc s = .next { s with rsp := some ⟨true, BitVec.ofNat 40 (raw % 2 ^ 24)⟩ } ∧
      raw < 2 ^ 32 ∧ raw * 100 < 2 ^ 39 ∧ raw = memRead s 0 4 ∧ raw % 2 ^ 24 = memRead s 1 3) ∧
    (¬(s.fsm = .done ∧ s.err = .none ∧ s.shape = .gas5) →
      exec .rdRaw32 s = .next { s with rsp := some ⟨false, 0#40⟩ } ∧
      exec .rdRes s = .next { s with rsp := some ⟨false, 0#40⟩ } ∧
      exec .rdTvoc s = .next { s with rsp := some ⟨false, 0#40⟩ })

/-- 42_readout.md R148, R149 and the value of R147, with the gate ACC(HT7) of R150: the status byte, the humidity and
the temperature of an accepted HT7 frame; {0, 0} in any other state. Nothing but the response changes. -/
def Obligations.HumidityTemperatureFieldsOfAcceptedFrame : Prop :=
  ∀ s : State,
    (s.fsm = .done ∧ s.err = .none ∧ s.shape = .ht7 →
      exec .rdSflags s = .next { s with rsp := some ⟨true, BitVec.ofNat 40 (bufByte s 0).toNat⟩ } ∧
      exec .rdHum s = .next { s with rsp := some ⟨true, BitVec.ofNat 40
        ((bufByte s 1).toNat <<< 12 ||| (bufByte s 2).toNat <<< 4 ||| (bufByte s 3).toNat >>> 4)⟩ } ∧
      exec .rdTemp s = .next { s with rsp := some ⟨true, BitVec.ofNat 40
        (((bufByte s 3).toNat &&& 0x0F) <<< 16 ||| (bufByte s 4).toNat <<< 8 ||| (bufByte s 5).toNat)⟩ } ∧
      exec .rdTemp s = .next { s with rsp := some ⟨true, BitVec.ofNat 40 (memRead s 3 3 % 2 ^ 20)⟩ }) ∧
    (¬(s.fsm = .done ∧ s.err = .none ∧ s.shape = .ht7) →
      exec .rdSflags s = .next { s with rsp := some ⟨false, 0#40⟩ } ∧
      exec .rdHum s = .next { s with rsp := some ⟨false, 0#40⟩ } ∧
      exec .rdTemp s = .next { s with rsp := some ⟨false, 0#40⟩ })

/-- 20_memory.md R52, R53, R54: the fields tile the frame read as one big-endian number; humidity and temperature are
bits 47:28 and 27:8 of the 56-bit word. -/
def Obligations.FieldsTileTheFrameWord : Prop :=
  ∀ s : State,
    (raw32 s).toNat = memRead s 0 4 ∧
    (bufByte s 0).toNat = memRead s 0 7 / 2 ^ 48 ∧
    (humidity s).toNat = memRead s 0 7 / 2 ^ 28 % 2 ^ 20 ∧
    (temperature s).toNat = memRead s 0 7 / 2 ^ 8 % 2 ^ 20 ∧
    (bufByte s 6).toNat = memRead s 0 7 % 2 ^ 8 ∧
    (temperature s).toNat = memRead s 3 3 % 2 ^ 20 ∧
    (tvoc s).toNat = memRead s 1 3

/-- 42_readout.md R141, 20_memory.md R56: every `rd` answers in every state, with the register's value or {0, 0}, and
writes no state; so after any list of reads every field but the response is as before, and any read answers what it
would have answered without them. A register number from 0x0A on is no `rd` but an illegal word. -/
def Obligations.ReadsHaveNoSideEffect : Prop :=
  (∀ r : Reg, decode (0x600#12 ||| (encodeReg r).setWidth 12) = .ok (Instr.rd r)) ∧
  (∀ (r : Reg) (s : State),
    (∀ v, readReg r s = some v → exec (Instr.rd r) s = .next { s with rsp := some ⟨true, v⟩ }) ∧
    (readReg r s = none → exec (Instr.rd r) s = .next { s with rsp := some ⟨false, 0#40⟩ })) ∧
  (∀ (a : Byte) (s : State), 0x0A ≤ a.toNat →
    issue (0x600#12 ||| a.setWidth 12) s = .next { s with fltIll := true, rsp := some ⟨false, 0#40⟩ }) ∧
  ∀ (rs : List Reg) (r : Reg) (s : State),
    (∃ a, execAll (rs.map Instr.rd) s = .next { s with rsp := a }) ∧
    execAll (rs.map Instr.rd ++ [Instr.rd r]) s = exec (Instr.rd r) s

/-- 00_scope.md R10, 10_state.md R33: both masks are one-hot for all parameter values, the defaults are 0x08 and 0x80,
and the two flags read the bits the parameters name. -/
def Obligations.FlagMasksAreOneHot : Prop :=
  (∀ p : Config.Params,
    calMask p ∈ [0x01#8, 0x02#8, 0x04#8, 0x08#8, 0x10#8, 0x20#8, 0x40#8, 0x80#8] ∧
    busyMask p ∈ [0x01#8, 0x02#8, 0x04#8, 0x08#8, 0x10#8, 0x20#8, 0x40#8, 0x80#8] ∧
    (paramsWellFormed p = true ↔ calMask p ≠ busyMask p) ∧
    ∀ b : Byte, (statusFlags p b).calEnabled = b.getLsbD p.calBit.val ∧
      (statusFlags p b).busy = b.getLsbD p.busyBit.val) ∧
  calMask Config.Params.default = 0x08#8 ∧ busyMask Config.Params.default = 0x80#8

/-- 42_readout.md R147: `rd sflags` answers the status byte of an accepted HT7 frame and nothing in any other state;
whenever it answers, the byte has the calibration-enabled flag set, whichever bit that is (the spec derives this
clause), while the busy flag may be either. `StateInv` (an invariant of the model, stated in StepKeepsTheInvariant) rules out states no run reaches. -/
def Obligations.ReadableStatusByteIsCalibrated : Prop :=
  (∀ s : State,
    readReg .sflags s =
      (if s.fsm = .done ∧ s.err = .none ∧ s.shape = .ht7 then some ((bufByte s 0).setWidth 40) else none) ∧
    ∀ v, StateInv s → readReg .sflags s = some v →
      v.getLsbD s.params.calBit.val = true ∧ (statusFlags s.params (bufByte s 0)).calEnabled = true) ∧
  ∀ (p : Config.Params) (busy : Bool), paramsWellFormed p = true →
    ∃ s v, StateInv s ∧ s.params = p ∧ readReg .sflags s = some v ∧ v.getLsbD p.busyBit.val = busy

/-- 95_test_vectors.md section 4, law 6: whenever any field of the frame is readable, the two checksum diagnostics are
readable and equal. `StateInv` (an invariant of the model, stated in StepKeepsTheInvariant) rules out states no run reaches. -/
def Obligations.ReadableFieldsImplyEqualChecksums : Prop :=
  ∀ (s : State) (r : Reg) (v : Data), StateInv s → r ∈ [Reg.raw32, .res, .tvoc, .sflags, .hum, .temp] →
    readReg r s = some v → ∃ k, readReg .crcExp s = some k ∧ readReg .crcAct s = some k

/-! ### Faults, control state, frames -/

/-- 60_exceptions.md R185, 10_state.md R29: the complete list of commands refused SEQ, what such a refusal does, and
that no other instruction writes FLT_SEQ. -/
def Obligations.SequenceFaultsExactlyAsListed : Prop :=
  ∀ (i : Instr) (s t : State), exec i s = .next t →
    let refused := ((i = .crcInit ∨ ∃ b, i = .crcUpd b) ∧ (s.fsm = .recv ∨ s.fsm = .done)) ∨
      ((∃ b, i = .frmPush b) ∧ (s.fsm = .idle ∨ s.fsm = .done))
    (refused → t = { s with fltSeq := true, rsp := some ⟨false, 0#40⟩ }) ∧
    (¬refused → t.fltSeq = s.fltSeq)

/-- 10_state.md R28, R34 item 6, 70_reset_and_hazards.md R219: over any step, FLT_ILL becomes 1 exactly when an illegal
word is issued, and neither fault bit goes from 1 to 0 except by reset. -/
def Obligations.StickyFaultsClearedOnlyByReset : Prop :=
  ∀ (s t : State), step s = .next t →
    ((nextInput s).rst = false →
      (t.fltIll = true ↔ s.fltIll = true ∨
        ((nextInput s).cmdValid = true ∧ ∃ e, decode (nextInput s).cmd = .error e)) ∧
      (s.fltSeq = true → t.fltSeq = true)) ∧
    ((nextInput s).rst = true → t.fltIll = false ∧ t.fltSeq = false)

/-- 10_state.md R23: the transitions of FSM, complete, for every word in every state, and for reset. -/
def Obligations.ControlStateTransitions : Prop :=
  (∀ (w : CmdWord) (s t : State), issue w s = .next t →
    ((∃ sh, decode w = .ok (.frmOpen sh)) → t.fsm = .recv) ∧
    (decode w = .ok .frmAbort → t.fsm = .idle) ∧
    ((∃ b, decode w = .ok (.frmPush b)) → s.fsm = .recv → s.idx.toNat + 1 < Config.len s.shape → t.fsm = .recv) ∧
    ((∃ b, decode w = .ok (.frmPush b)) → s.fsm = .recv → s.idx.toNat + 1 = Config.len s.shape → t.fsm = .done) ∧
    ((∃ b, decode w = .ok (.frmPush b)) → s.fsm ≠ .recv → t.fsm = s.fsm ∧ t.fltSeq = true) ∧
    ((decode w = .ok .crcInit ∨ ∃ b, decode w = .ok (.crcUpd b)) →
      t.fsm = s.fsm ∧ (s.fsm ≠ .idle → t.fltSeq = true)) ∧
    ((∃ r, decode w = .ok (Instr.rd r)) → t.fsm = s.fsm) ∧
    ((∃ e, decode w = .error e) → t.fsm = s.fsm ∧ t.fltIll = true)) ∧
  ∀ (p : PortIn) (s t : State), p.rst = true → clockEdge p s = .next t → t.fsm = .idle

/-- 10_state.md R21: the instructions that can change CRC. -/
def Obligations.OnlyTheseWriteCrc : Prop :=
  ∀ (i : Instr) (s t : State), exec i s = .next t → t.crc ≠ s.crc →
    (s.fsm = .idle ∧ (i = .crcInit ∨ ∃ b, i = .crcUpd b)) ∨ (∃ sh, i = .frmOpen sh) ∨ i = .frmAbort ∨
    (∃ b, i = .frmPush b ∧ s.fsm = .recv ∧ s.idx.toNat < Config.dlen s.shape ∧ t.crc = crc8Step s.crc b)

/-- 10_state.md R22, 20_memory.md R51: a byte of the buffer is written by a push at IDX alone, and cleared by
`frm.open` and `frm.abort`. -/
def Obligations.OnlyPushAtIndexWritesABufferByte : Prop :=
  ∀ (i : Instr) (s t : State) (j : Fin 7), exec i s = .next t → bufByte t j ≠ bufByte s j →
    (∃ b, i = .frmPush b ∧ s.fsm = .recv ∧ s.idx.toNat = j.val ∧ bufByte t j = b) ∨
    (((∃ sh, i = .frmOpen sh) ∨ i = .frmAbort) ∧ bufByte t j = 0x00#8)

/-- The frame of the checksum commands and of the reads (10_state.md R21, 42_readout.md R141): the checksum commands
change CRC, FLT_SEQ and the response at most, the reads the response; every byte of the buffer reads as before. -/
def Obligations.FrameOfChecksumCommandsAndReads : Prop :=
  ∀ (i : Instr) (s t : State), exec i s = .next t →
    (i = .crcInit ∨ (∃ b, i = .crcUpd b) ∨ ∃ r, i = Instr.rd r) →
    t.fsm = s.fsm ∧ t.shape = s.shape ∧ t.idx = s.idx ∧ (∀ j : Fin 7, bufByte t j = bufByte s j) ∧ t.err = s.err ∧
    t.fltIll = s.fltIll ∧ t.params = s.params ∧ t.pins = s.pins ∧
    ((∃ r, i = Instr.rd r) → t.crc = s.crc ∧ t.fltSeq = s.fltSeq)

/-- The frame of the frame commands (41_frame.md R110, R112, R118): an executed push changes one byte of the buffer,
the one at IDX; FLT_ILL is never touched, FLT_SEQ by a refused push alone; SHAPE is not touched by a push. -/
def Obligations.FrameOfFrameCommands : Prop :=
  ∀ (i : Instr) (s t : State), exec i s = .next t →
    ((∃ sh, i = .frmOpen sh) ∨ i = .frmAbort → t.fltIll = s.fltIll ∧ t.fltSeq = s.fltSeq ∧ t.params = s.params ∧
      t.pins = s.pins) ∧
    ((∃ b, i = .frmPush b) → t.shape = s.shape ∧ t.fltIll = s.fltIll ∧ t.params = s.params ∧ t.pins = s.pins ∧
      (∀ j : Fin 7, j.val ≠ s.idx.toNat → bufByte t j = bufByte s j) ∧
      (s.fsm = .recv → t.fltSeq = s.fltSeq) ∧
      (s.fsm ≠ .recv → t.fsm = s.fsm ∧ t.idx = s.idx ∧ t.crc = s.crc ∧ t.buf = s.buf ∧ t.err = s.err))

/-! ### Invariants -/

/-- 10_state.md R34, R35: the reset state meets the invariant, whatever the parameters and the inputs to come are. -/
def Obligations.ResetMeetsTheInvariant : Prop :=
  ∀ (p : Config.Params) (ins : List PortIn), StateInv { State.reset with params := p, pins := ins }

/-- 10_state.md R34: every step keeps the invariant, from every state that meets it. -/
def Obligations.StepKeepsTheInvariant : Prop :=
  ∀ s t : State, StateInv s → step s = .next t → StateInv t

/-- 10_state.md R34, all six items, of every state a run from reset reaches. -/
def Obligations.ReachableStatesMeetTheInvariants : Prop :=
  ∀ (n : Nat) (p : Config.Params) (ins : List PortIn) (s : State),
    Sys2Proof.core.run n { State.reset with params := p, pins := ins } = .next s →
    fsmCode s.fsm ≠ 3#2 ∧ errCode s.err ≠ 3#2 ∧ InvIdle s ∧ InvRecv s ∧ InvDone s ∧ InvUncal s ∧
    ∀ t, step s = .next t → (nextInput s).rst = false →
      (s.fltIll = true → t.fltIll = true) ∧ (s.fltSeq = true → t.fltSeq = true)

/-- 20_memory.md R58, 70_reset_and_hazards.md R222 ("every command completes"): from every state that meets the
invariant the step answers a next state, whatever the host presents; an executed push has IDX below LEN. -/
def Obligations.EveryCommandCompletes : Prop :=
  ∀ s : State, StateInv s → (∃ t, step s = .next t) ∧ (∀ i : Instr, ∃ t, exec i s = .next t) ∧
    (s.fsm = .recv → s.idx.toNat < Config.len s.shape ∧ Config.len s.shape ≤ 7)

/-! ### What the values mean to the consumer -/

/-- 42_readout.md R158: relative humidity, from 0 to just below 100, and the source's example. -/
def Obligations.RelativeHumidityRange : Prop :=
  (∀ h : BitVec 20, relativeHumidity h = 100 * (h.toNat : Rat) / 2 ^ 20 ∧ 0 ≤ relativeHumidity h ∧
    relativeHumidity h < 100) ∧
  relativeHumidity 0#20 = 0 ∧ relativeHumidity 0xFFFFF#20 = 100 * 1048575 / 1048576 ∧
  relativeHumidity 104857#20 = 10485700 / 1048576

/-- 42_readout.md R159: degrees Celsius, from −50 to just below 150, zero exactly at 0x40000, and the example. -/
def Obligations.CelsiusRange : Prop :=
  (∀ v : BitVec 20, celsius v = 200 * (v.toNat : Rat) / 2 ^ 20 - 50 ∧ -50 ≤ celsius v ∧
    celsius v ≤ 200 * 1048575 / 1048576 - 50 ∧ (celsius v = 0 ↔ v = 0x40000#20)) ∧
  celsius 0#20 = -50 ∧ celsius 0xFFFFF#20 = 200 * 1048575 / 1048576 - 50 ∧
  celsius 661913#20 = 132382600 / 1048576 - 50

/-! ### The step across a reset edge -/

/-- 70_reset_and_hazards.md R210 for the machine's own step: where the next input has `rst = 1`, whatever else it
presents, every element takes its reset value and there is no response. That the input is taken and the parameters
stay is the model's choice (notes/assumptions/2.md, 10.md). -/
def Obligations.ResetStepGivesTheResetState : Prop :=
  ∀ (s : State) (p : PortIn) (rest : List PortIn), s.pins = p :: rest → p.rst = true → ∃ t, step s = .next t ∧
    t.fsm = .idle ∧ t.shape = .gas5 ∧ t.idx = 0#3 ∧ t.crc = 0xFF#8 ∧ (∀ i : Fin 7, bufByte t i = 0x00#8) ∧
    t.err = .none ∧ t.fltIll = false ∧ t.fltSeq = false ∧ t.rsp = none ∧ t.pins = rest ∧ t.params = s.params
end

