-- ==== Sys2Proof/Laws/Decode.lean ====
section
/-! SUPPORT. The fields of a command word, and all that decoding can answer, said once. -/

namespace Sys2Proof

@[simp] theorem opcOf_append (o : BitVec 4) (a : Byte) : opcOf (o ++ a) = o := by
  apply BitVec.eq_of_getLsbD_eq
  intro i hi
  show (BitVec.extractLsb' (n := 4 + 8) 8 4 (o ++ a)).getLsbD i = o.getLsbD i
  rw [BitVec.getLsbD_extractLsb', BitVec.getLsbD_append]
  simp [hi]

@[simp] theorem argOf_append (o : BitVec 4) (a : Byte) : argOf (o ++ a) = a := by
  apply BitVec.eq_of_getLsbD_eq
  intro i hi
  show (BitVec.extractLsb' (n := 4 + 8) 0 8 (o ++ a)).getLsbD i = a.getLsbD i
  rw [BitVec.getLsbD_extractLsb', BitVec.getLsbD_append]
  simp [hi]

/-- A word is its two fields. -/
theorem opcOf_append_argOf (w : CmdWord) : opcOf w ++ argOf w = w := by
  apply BitVec.eq_of_getLsbD_eq
  intro i hi
  show (opcOf w ++ argOf w).getLsbD i = w.getLsbD i
  rw [BitVec.getLsbD_append]
  unfold opcOf argOf
  rw [BitVec.getLsbD_extractLsb', BitVec.getLsbD_extractLsb']
  by_cases h : i < 8
  · simp [h]
  · simp [h]
    rw [show 8 + (i - 8) = i by omega]
    simp
    intro
    omega

/-- To show something of every word, show it of every pair of fields. -/
theorem forall_word {P : CmdWord → Prop} (h : ∀ (o : BitVec 4) (a : Byte), P (o ++ a)) (w : CmdWord) : P w :=
  opcOf_append_argOf w ▸ h (opcOf w) (argOf w)

theorem decodeShape_cases (a : Byte) :
    (decodeShape a = none ∧ 2 ≤ a.toNat) ∨ ∃ sh, decodeShape a = some sh ∧ encodeShape sh = a := by
  unfold decodeShape
  have hb : a = BitVec.ofNat 8 a.toNat := by simp
  split
  case h_3 h0 h1 =>
    left
    refine ⟨rfl, ?_⟩
    have : a.toNat ≠ 0 := h0
    have : a.toNat ≠ 1 := h1
    omega
  all_goals (right; refine ⟨_, rfl, ?_⟩; rw [hb]; simp_all [encodeShape])

theorem decodeReg_cases (a : Byte) :
    (decodeReg a = none ∧ 10 ≤ a.toNat) ∨ ∃ r, decodeReg a = some r ∧ encodeReg r = a := by
  unfold decodeReg
  have hb : a = BitVec.ofNat 8 a.toNat := by simp
  split
  case h_11 =>
    left
    refine ⟨rfl, ?_⟩
    by_contra hlt
    have : a.toNat < 10 := by omega
    generalize a.toNat = n at *
    interval_cases n <;> simp_all
  all_goals (right; refine ⟨_, rfl, ?_⟩; rw [hb]; simp_all [encodeReg])

theorem opc_cases (o : BitVec 4) :
    (o.toNat = 0 ∨ 7 ≤ o.toNat) ∨ o = 1#4 ∨ o = 2#4 ∨ o = 3#4 ∨ o = 4#4 ∨ o = 5#4 ∨ o = 6#4 := by
  revert o; decide

/-- All that decoding can answer, case by case (30_encoding.md R74). -/
theorem decode_cases (o : BitVec 4) (a : Byte) :
    ((o.toNat = 0 ∨ 7 ≤ o.toNat) ∧ decode (o ++ a) = .error .reservedOpcode) ∨
    (o = 1#4 ∧ a ≠ 0#8 ∧ decode (o ++ a) = .error .operandNotZero) ∨
    (o = 5#4 ∧ a ≠ 0#8 ∧ decode (o ++ a) = .error .operandNotZero) ∨
    (o = 3#4 ∧ 2 ≤ a.toNat ∧ decode (o ++ a) = .error .reservedShape) ∨
    (o = 6#4 ∧ 10 ≤ a.toNat ∧ decode (o ++ a) = .error .reservedRegister) ∨
    (o = 1#4 ∧ a = 0#8 ∧ decode (o ++ a) = .ok .crcInit) ∨
    (o = 5#4 ∧ a = 0#8 ∧ decode (o ++ a) = .ok .frmAbort) ∨
    (o = 2#4 ∧ decode (o ++ a) = .ok (.crcUpd a)) ∨
    (o = 4#4 ∧ decode (o ++ a) = .ok (.frmPush a)) ∨
    (o = 3#4 ∧ ∃ sh, a = encodeShape sh ∧ decode (o ++ a) = .ok (.frmOpen sh)) ∨
    (o = 6#4 ∧ ∃ r, a = encodeReg r ∧ decode (o ++ a) = .ok (Instr.rd r)) := by
  unfold decode
  simp only [opcOf_append, argOf_append]
  rcases opc_cases o with h | rfl | rfl | rfl | rfl | rfl | rfl
  · left
    refine ⟨h, ?_⟩
    split <;> first | rfl | (exfalso; omega)
  · by_cases h : a = 0#8 <;> simp [h]
  · simp
  · rcases decodeShape_cases a with ⟨h, h'⟩ | ⟨sh, h, rfl⟩ <;> simp_all
  · simp
  · by_cases h : a = 0#8 <;> simp [h]
  · rcases decodeReg_cases a with ⟨h, h'⟩ | ⟨r, h, rfl⟩
    · simp_all
    · have : ∃ q, encodeReg r = encodeReg q ∧ Instr.rd r = Instr.rd q := ⟨r, rfl, rfl⟩
      simp_all

@[simp] theorem reads_rd (r : Reg) : (Instr.rd r).reads = some r := by cases r <;> rfl

/-- An instruction is no `rd`, or the `rd` of a register. -/
theorem reads_cases (i : Instr) : i.reads = none ∨ ∃ r, i.reads = some r ∧ i = Instr.rd r := by
  cases i <;> simp [Instr.reads, Instr.rd]

/-- An `rd` is none of the five other commands. -/
theorem rd_ne (r : Reg) :
    Instr.rd r ≠ .crcInit ∧ (∀ b, Instr.rd r ≠ .crcUpd b) ∧ (∀ sh, Instr.rd r ≠ .frmOpen sh) ∧
    (∀ b, Instr.rd r ≠ .frmPush b) ∧ Instr.rd r ≠ .frmAbort := by
  cases r <;> simp [Instr.rd]

end Sys2Proof
end

