-- ==== Sys2Proof/Laws/State.lean ====
section
/-! SUPPORT. What each update of the state does to each field, one lemma per field per update. -/

namespace Sys2Proof.Machine

open Sys2Proof

@[simp] theorem respond_fsm (ok : Bool) (d : Data) (s : State) : (respond ok d s).fsm = s.fsm := rfl
@[simp] theorem respond_shape (ok : Bool) (d : Data) (s : State) : (respond ok d s).shape = s.shape := rfl
@[simp] theorem respond_idx (ok : Bool) (d : Data) (s : State) : (respond ok d s).idx = s.idx := rfl
@[simp] theorem respond_crc (ok : Bool) (d : Data) (s : State) : (respond ok d s).crc = s.crc := rfl
@[simp] theorem respond_buf (ok : Bool) (d : Data) (s : State) : (respond ok d s).buf = s.buf := rfl
@[simp] theorem respond_err (ok : Bool) (d : Data) (s : State) : (respond ok d s).err = s.err := rfl
@[simp] theorem respond_fltIll (ok : Bool) (d : Data) (s : State) : (respond ok d s).fltIll = s.fltIll := rfl
@[simp] theorem respond_fltSeq (ok : Bool) (d : Data) (s : State) : (respond ok d s).fltSeq = s.fltSeq := rfl
@[simp] theorem respond_rsp (ok : Bool) (d : Data) (s : State) : (respond ok d s).rsp = some ⟨ok, d⟩ := rfl
@[simp] theorem respond_params (ok : Bool) (d : Data) (s : State) : (respond ok d s).params = s.params := rfl
@[simp] theorem respond_pins (ok : Bool) (d : Data) (s : State) : (respond ok d s).pins = s.pins := rfl

@[simp] theorem setFltIll_fsm (s : State) : (setFltIll s).fsm = s.fsm := rfl
@[simp] theorem setFltIll_shape (s : State) : (setFltIll s).shape = s.shape := rfl
@[simp] theorem setFltIll_idx (s : State) : (setFltIll s).idx = s.idx := rfl
@[simp] theorem setFltIll_crc (s : State) : (setFltIll s).crc = s.crc := rfl
@[simp] theorem setFltIll_buf (s : State) : (setFltIll s).buf = s.buf := rfl
@[simp] theorem setFltIll_err (s : State) : (setFltIll s).err = s.err := rfl
@[simp] theorem setFltIll_fltIll (s : State) : (setFltIll s).fltIll = true := rfl
@[simp] theorem setFltIll_fltSeq (s : State) : (setFltIll s).fltSeq = s.fltSeq := rfl
@[simp] theorem setFltIll_rsp (s : State) : (setFltIll s).rsp = s.rsp := rfl
@[simp] theorem setFltIll_params (s : State) : (setFltIll s).params = s.params := rfl
@[simp] theorem setFltIll_pins (s : State) : (setFltIll s).pins = s.pins := rfl

@[simp] theorem setFltSeq_fsm (s : State) : (setFltSeq s).fsm = s.fsm := rfl
@[simp] theorem setFltSeq_shape (s : State) : (setFltSeq s).shape = s.shape := rfl
@[simp] theorem setFltSeq_idx (s : State) : (setFltSeq s).idx = s.idx := rfl
@[simp] theorem setFltSeq_crc (s : State) : (setFltSeq s).crc = s.crc := rfl
@[simp] theorem setFltSeq_buf (s : State) : (setFltSeq s).buf = s.buf := rfl
@[simp] theorem setFltSeq_err (s : State) : (setFltSeq s).err = s.err := rfl
@[simp] theorem setFltSeq_fltIll (s : State) : (setFltSeq s).fltIll = s.fltIll := rfl
@[simp] theorem setFltSeq_fltSeq (s : State) : (setFltSeq s).fltSeq = true := rfl
@[simp] theorem setFltSeq_rsp (s : State) : (setFltSeq s).rsp = s.rsp := rfl
@[simp] theorem setFltSeq_params (s : State) : (setFltSeq s).params = s.params := rfl
@[simp] theorem setFltSeq_pins (s : State) : (setFltSeq s).pins = s.pins := rfl

@[simp] theorem storeByte_fsm (i : Fin 7) (b : Byte) (s : State) : (storeByte i b s).fsm = s.fsm := rfl
@[simp] theorem storeByte_shape (i : Fin 7) (b : Byte) (s : State) : (storeByte i b s).shape = s.shape := rfl
@[simp] theorem storeByte_idx (i : Fin 7) (b : Byte) (s : State) : (storeByte i b s).idx = s.idx := rfl
@[simp] theorem storeByte_crc (i : Fin 7) (b : Byte) (s : State) : (storeByte i b s).crc = s.crc := rfl
@[simp] theorem storeByte_buf (i : Fin 7) (b : Byte) (s : State) : (storeByte i b s).buf = s.buf.set i b := rfl
@[simp] theorem storeByte_err (i : Fin 7) (b : Byte) (s : State) : (storeByte i b s).err = s.err := rfl
@[simp] theorem storeByte_fltIll (i : Fin 7) (b : Byte) (s : State) : (storeByte i b s).fltIll = s.fltIll := rfl
@[simp] theorem storeByte_fltSeq (i : Fin 7) (b : Byte) (s : State) : (storeByte i b s).fltSeq = s.fltSeq := rfl
@[simp] theorem storeByte_rsp (i : Fin 7) (b : Byte) (s : State) : (storeByte i b s).rsp = s.rsp := rfl
@[simp] theorem storeByte_params (i : Fin 7) (b : Byte) (s : State) : (storeByte i b s).params = s.params := rfl
@[simp] theorem storeByte_pins (i : Fin 7) (b : Byte) (s : State) : (storeByte i b s).pins = s.pins := rfl

@[simp] theorem setCrc_fsm (c : Byte) (s : State) : (setCrc c s).fsm = s.fsm := rfl
@[simp] theorem setCrc_shape (c : Byte) (s : State) : (setCrc c s).shape = s.shape := rfl
@[simp] theorem setCrc_idx (c : Byte) (s : State) : (setCrc c s).idx = s.idx := rfl
@[simp] theorem setCrc_crc (c : Byte) (s : State) : (setCrc c s).crc = c := rfl
@[simp] theorem setCrc_buf (c : Byte) (s : State) : (setCrc c s).buf = s.buf := rfl
@[simp] theorem setCrc_err (c : Byte) (s : State) : (setCrc c s).err = s.err := rfl
@[simp] theorem setCrc_fltIll (c : Byte) (s : State) : (setCrc c s).fltIll = s.fltIll := rfl
@[simp] theorem setCrc_fltSeq (c : Byte) (s : State) : (setCrc c s).fltSeq = s.fltSeq := rfl
@[simp] theorem setCrc_rsp (c : Byte) (s : State) : (setCrc c s).rsp = s.rsp := rfl
@[simp] theorem setCrc_params (c : Byte) (s : State) : (setCrc c s).params = s.params := rfl
@[simp] theorem setCrc_pins (c : Byte) (s : State) : (setCrc c s).pins = s.pins := rfl

@[simp] theorem advanceIdx_fsm (s : State) : (advanceIdx s).fsm = s.fsm := rfl
@[simp] theorem advanceIdx_shape (s : State) : (advanceIdx s).shape = s.shape := rfl
@[simp] theorem advanceIdx_idx (s : State) : (advanceIdx s).idx = s.idx + 1#3 := rfl
@[simp] theorem advanceIdx_crc (s : State) : (advanceIdx s).crc = s.crc := rfl
@[simp] theorem advanceIdx_buf (s : State) : (advanceIdx s).buf = s.buf := rfl
@[simp] theorem advanceIdx_err (s : State) : (advanceIdx s).err = s.err := rfl
@[simp] theorem advanceIdx_fltIll (s : State) : (advanceIdx s).fltIll = s.fltIll := rfl
@[simp] theorem advanceIdx_fltSeq (s : State) : (advanceIdx s).fltSeq = s.fltSeq := rfl
@[simp] theorem advanceIdx_rsp (s : State) : (advanceIdx s).rsp = s.rsp := rfl
@[simp] theorem advanceIdx_params (s : State) : (advanceIdx s).params = s.params := rfl
@[simp] theorem advanceIdx_pins (s : State) : (advanceIdx s).pins = s.pins := rfl

@[simp] theorem latchVerdict_fsm (s : State) : (latchVerdict s).fsm = .done := rfl
@[simp] theorem latchVerdict_shape (s : State) : (latchVerdict s).shape = s.shape := rfl
@[simp] theorem latchVerdict_idx (s : State) : (latchVerdict s).idx = s.idx := rfl
@[simp] theorem latchVerdict_crc (s : State) : (latchVerdict s).crc = s.crc := rfl
@[simp] theorem latchVerdict_buf (s : State) : (latchVerdict s).buf = s.buf := rfl
@[simp] theorem latchVerdict_err (s : State) : (latchVerdict s).err = verdict s := rfl
@[simp] theorem latchVerdict_fltIll (s : State) : (latchVerdict s).fltIll = s.fltIll := rfl
@[simp] theorem latchVerdict_fltSeq (s : State) : (latchVerdict s).fltSeq = s.fltSeq := rfl
@[simp] theorem latchVerdict_rsp (s : State) : (latchVerdict s).rsp = s.rsp := rfl
@[simp] theorem latchVerdict_params (s : State) : (latchVerdict s).params = s.params := rfl
@[simp] theorem latchVerdict_pins (s : State) : (latchVerdict s).pins = s.pins := rfl

@[simp] theorem seedFrame_fsm (f : Fsm) (sh : Shape) (s : State) : (seedFrame f sh s).fsm = f := rfl
@[simp] theorem seedFrame_shape (f : Fsm) (sh : Shape) (s : State) : (seedFrame f sh s).shape = sh := rfl
@[simp] theorem seedFrame_idx (f : Fsm) (sh : Shape) (s : State) : (seedFrame f sh s).idx = 0#3 := rfl
@[simp] theorem seedFrame_crc (f : Fsm) (sh : Shape) (s : State) : (seedFrame f sh s).crc = Config.seed := rfl
@[simp] theorem seedFrame_buf (f : Fsm) (sh : Shape) (s : State) : (seedFrame f sh s).buf = Vector.replicate 7 0x00#8 := rfl
@[simp] theorem seedFrame_err (f : Fsm) (sh : Shape) (s : State) : (seedFrame f sh s).err = .none := rfl
@[simp] theorem seedFrame_fltIll (f : Fsm) (sh : Shape) (s : State) : (seedFrame f sh s).fltIll = s.fltIll := rfl
@[simp] theorem seedFrame_fltSeq (f : Fsm) (sh : Shape) (s : State) : (seedFrame f sh s).fltSeq = s.fltSeq := rfl
@[simp] theorem seedFrame_rsp (f : Fsm) (sh : Shape) (s : State) : (seedFrame f sh s).rsp = s.rsp := rfl
@[simp] theorem seedFrame_params (f : Fsm) (sh : Shape) (s : State) : (seedFrame f sh s).params = s.params := rfl
@[simp] theorem seedFrame_pins (f : Fsm) (sh : Shape) (s : State) : (seedFrame f sh s).pins = s.pins := rfl

@[simp] theorem resetBlock_fsm (s : State) : (resetBlock s).fsm = .idle := rfl
@[simp] theorem resetBlock_shape (s : State) : (resetBlock s).shape = .gas5 := rfl
@[simp] theorem resetBlock_idx (s : State) : (resetBlock s).idx = 0#3 := rfl
@[simp] theorem resetBlock_crc (s : State) : (resetBlock s).crc = Config.seed := rfl
@[simp] theorem resetBlock_buf (s : State) : (resetBlock s).buf = Vector.replicate 7 0x00#8 := rfl
@[simp] theorem resetBlock_err (s : State) : (resetBlock s).err = .none := rfl
@[simp] theorem resetBlock_fltIll (s : State) : (resetBlock s).fltIll = false := rfl
@[simp] theorem resetBlock_fltSeq (s : State) : (resetBlock s).fltSeq = false := rfl
@[simp] theorem resetBlock_rsp (s : State) : (resetBlock s).rsp = none := rfl
@[simp] theorem resetBlock_params (s : State) : (resetBlock s).params = s.params := rfl
@[simp] theorem resetBlock_pins (s : State) : (resetBlock s).pins = s.pins := rfl

@[simp] theorem idleEdge_fsm (s : State) : (idleEdge s).fsm = s.fsm := rfl
@[simp] theorem idleEdge_shape (s : State) : (idleEdge s).shape = s.shape := rfl
@[simp] theorem idleEdge_idx (s : State) : (idleEdge s).idx = s.idx := rfl
@[simp] theorem idleEdge_crc (s : State) : (idleEdge s).crc = s.crc := rfl
@[simp] theorem idleEdge_buf (s : State) : (idleEdge s).buf = s.buf := rfl
@[simp] theorem idleEdge_err (s : State) : (idleEdge s).err = s.err := rfl
@[simp] theorem idleEdge_fltIll (s : State) : (idleEdge s).fltIll = s.fltIll := rfl
@[simp] theorem idleEdge_fltSeq (s : State) : (idleEdge s).fltSeq = s.fltSeq := rfl
@[simp] theorem idleEdge_rsp (s : State) : (idleEdge s).rsp = none := rfl
@[simp] theorem idleEdge_params (s : State) : (idleEdge s).params = s.params := rfl
@[simp] theorem idleEdge_pins (s : State) : (idleEdge s).pins = s.pins := rfl

@[simp] theorem takeInput_fsm (s : State) : (takeInput s).fsm = s.fsm := rfl
@[simp] theorem takeInput_shape (s : State) : (takeInput s).shape = s.shape := rfl
@[simp] theorem takeInput_idx (s : State) : (takeInput s).idx = s.idx := rfl
@[simp] theorem takeInput_crc (s : State) : (takeInput s).crc = s.crc := rfl
@[simp] theorem takeInput_buf (s : State) : (takeInput s).buf = s.buf := rfl
@[simp] theorem takeInput_err (s : State) : (takeInput s).err = s.err := rfl
@[simp] theorem takeInput_fltIll (s : State) : (takeInput s).fltIll = s.fltIll := rfl
@[simp] theorem takeInput_fltSeq (s : State) : (takeInput s).fltSeq = s.fltSeq := rfl
@[simp] theorem takeInput_rsp (s : State) : (takeInput s).rsp = s.rsp := rfl
@[simp] theorem takeInput_params (s : State) : (takeInput s).params = s.params := rfl
@[simp] theorem takeInput_pins (s : State) : (takeInput s).pins = s.pins.tail := rfl

end Sys2Proof.Machine
end

