-- ==== Sys2Proof/Laws/Ops.lean ====
section
/-! SUPPORT. The shared operations, said once: bytes of the buffer, gates and registers, the parts of a push, the
checksum functions. -/

namespace Sys2Proof.Machine

open Sys2Proof

/-! ### Bytes of the frame buffer -/

theorem bufByte_congr {s t : State} (h : t.buf = s.buf) (i : Fin 7) : bufByte t i = bufByte s i := by
  simp [bufByte, h]

@[simp] theorem bufByte_storeByte_self (i : Fin 7) (b : Byte) (s : State) : bufByte (storeByte i b s) i = b := by
  simp [bufByte]

theorem bufByte_storeByte_of_ne {i j : Fin 7} (h : i ≠ j) (b : Byte) (s : State) :
    bufByte (storeByte i b s) j = bufByte s j := by
  have : i.val ≠ j.val := fun e => h (Fin.ext e)
  simp [bufByte, Vector.getElem_set_ne, this]

@[simp] theorem bufByte_seedFrame (f : Fsm) (sh : Shape) (s : State) (i : Fin 7) :
    bufByte (seedFrame f sh s) i = 0x00#8 := by
  simp [bufByte]

@[simp] theorem bufByte_setCrc (c : Byte) (s : State) (i : Fin 7) : bufByte (setCrc c s) i = bufByte s i := rfl

@[simp] theorem bufByte_respond (ok : Bool) (d : Data) (s : State) (i : Fin 7) :
    bufByte (respond ok d s) i = bufByte s i := rfl

/-! ### Gates and registers -/

theorem gateOpen_always (s : State) : gateOpen .always s = true := rfl

theorem gateOpen_done {s : State} : gateOpen .done s = true ↔ s.fsm = .done := by
  simp [gateOpen]

theorem gateOpen_acc {sh : Shape} {s : State} :
    gateOpen (.acc sh) s = true ↔ s.fsm = .done ∧ s.err = .none ∧ s.shape = sh := by
  simp [gateOpen]

theorem readReg_eq_some {r : Reg} {s : State} {v : Data} :
    readReg r s = some v ↔ gateOpen (gateOf r) s = true ∧ regValue r s = v := by
  unfold readReg; split <;> simp_all

theorem readReg_eq_none {r : Reg} {s : State} : readReg r s = none ↔ gateOpen (gateOf r) s = false := by
  unfold readReg; split <;> simp_all

/-- All an `rd` can do: a response, and no other field. -/
theorem execRd_spec (r : Reg) (s : State) : ∃ ok d, execRd r s = .next (respond ok d s) := by
  unfold execRd; split <;> exact ⟨_, _, rfl⟩

/-! ### The verdict -/

/-- The verdict looks at the shape, the checksum byte, byte 0, CRC and the calibration mask. -/
theorem verdict_cases (s : State) :
    (verdict s = .checksum ∧ s.crc ≠ bufByte s (checksumIndex s.shape)) ∨
    (verdict s = .uncal ∧ s.crc = bufByte s (checksumIndex s.shape) ∧ s.shape = .ht7 ∧
      bufByte s 0 &&& calMask s.params = 0x00#8) ∨
    (verdict s = .none ∧ s.crc = bufByte s (checksumIndex s.shape) ∧
      (s.shape = .ht7 → bufByte s 0 &&& calMask s.params ≠ 0x00#8)) := by
  unfold verdict; split <;> [simp_all; (split <;> simp_all)]

/-! ### The parts of a push -/

theorem foldByte_data {s : State} (b : Byte) (h : s.idx.toNat < Config.len s.shape - 1) :
    foldByte b s = setCrc (crc8Step s.crc b) s := by
  simp [foldByte, h]

theorem foldByte_last {s : State} (b : Byte) (h : ¬ s.idx.toNat < Config.len s.shape - 1) : foldByte b s = s := by
  simp [foldByte, h]

theorem finishFrame_last {s : State} (h : s.idx.toNat = Config.len s.shape) : finishFrame s = latchVerdict s := by
  simp [finishFrame, h]

theorem finishFrame_more {s : State} (h : s.idx.toNat ≠ Config.len s.shape) : finishFrame s = s := by
  simp [finishFrame, h]

/-- All a push can do: refuse, store a byte, or (in no reachable state) fault. -/
theorem execFrmPush_cases (b : Byte) (s : State) :
    (s.fsm ≠ .recv ∧ execFrmPush b s = refuseSeq s) ∨
    (∃ h : s.idx.toNat < 7, s.fsm = .recv ∧ execFrmPush b s = complete (pushByte ⟨s.idx.toNat, h⟩ b s)) ∨
    (s.fsm = .recv ∧ s.idx.toNat = 7 ∧ execFrmPush b s = .fault .noSuchBufferByte) := by
  unfold execFrmPush
  by_cases hf : s.fsm = .recv
  · by_cases hi : s.idx.toNat < 7
    · exact .inr (.inl ⟨hi, hf, by simp [hf, hi]⟩)
    · exact .inr (.inr ⟨hf, by have := s.idx.isLt; omega, by simp [hf, hi]⟩)
  · exact .inl ⟨hf, by simp [hf]⟩

/-- IDX counts without wrapping while it names a byte of the buffer (10_state.md R25). -/
theorem idx_add_one {s : State} (h : s.idx.toNat < 7) : (s.idx + 1#3).toNat = s.idx.toNat + 1 := by
  rw [BitVec.toNat_add]; simp; omega

theorem len_cases (sh : Shape) : (sh = .gas5 ∧ Config.len sh = 5) ∨ (sh = .ht7 ∧ Config.len sh = 7) := by
  cases sh <;> simp [Config.len]

/-- A push of a data byte. -/
theorem pushByte_data {b : Byte} {s : State} (h : s.idx.toNat < 7) (hl : s.idx.toNat + 1 < Config.len s.shape) :
    pushByte ⟨s.idx.toNat, h⟩ b s = advanceIdx (setCrc (crc8Step s.crc b) (storeByte ⟨s.idx.toNat, h⟩ b s)) := by
  unfold pushByte
  rw [foldByte_data _ (by simp; omega), finishFrame_more (by simp [-BitVec.toNat_add]; rw [idx_add_one h]; omega)]
  rfl

/-- The push that completes a frame. -/
theorem pushByte_last {b : Byte} {s : State} (h : s.idx.toNat < 7) (hl : s.idx.toNat + 1 = Config.len s.shape) :
    pushByte ⟨s.idx.toNat, h⟩ b s = latchVerdict (advanceIdx (storeByte ⟨s.idx.toNat, h⟩ b s)) := by
  unfold pushByte
  rw [foldByte_last _ (by simp; omega), finishFrame_last (by simp [-BitVec.toNat_add]; rw [idx_add_one h]; omega)]

/-- A push in no reachable state: IDX at LEN or beyond. -/
theorem pushByte_beyond {b : Byte} {s : State} (h : s.idx.toNat < 7) (hl : Config.len s.shape ≤ s.idx.toNat) :
    pushByte ⟨s.idx.toNat, h⟩ b s = advanceIdx (storeByte ⟨s.idx.toNat, h⟩ b s) := by
  unfold pushByte
  rw [foldByte_last _ (by simp; omega), finishFrame_more (by simp [-BitVec.toNat_add]; rw [idx_add_one h]; omega)]

/-- What every executed push leaves alone, and what it does to the buffer. -/
theorem pushByte_fields (i : Fin 7) (b : Byte) (s : State) :
    (pushByte i b s).shape = s.shape ∧ (pushByte i b s).fltIll = s.fltIll ∧ (pushByte i b s).fltSeq = s.fltSeq ∧
    (pushByte i b s).params = s.params ∧ (pushByte i b s).pins = s.pins ∧ (pushByte i b s).buf = s.buf.set i b := by
  simp only [pushByte, finishFrame, foldByte]; split <;> split <;> simp

/-! ### The checksum functions -/

@[simp] theorem crc8From_nil (c : Byte) : crc8From c [] = c := rfl

@[simp] theorem crc8From_cons (c b : Byte) (bs : List Byte) :
    crc8From c (b :: bs) = crc8From (crc8Step c b) bs := rfl

theorem crc8From_append (c : Byte) (as bs : List Byte) :
    crc8From c (as ++ bs) = crc8From (crc8From c as) bs := by
  simp [crc8From]

@[simp] theorem crcShifts_zero (c : Byte) : crcShifts 0 c = c := rfl

@[simp] theorem crcShifts_succ (n : Nat) (c : Byte) : crcShifts (n + 1) c = crcShifts n (crcShift c) := rfl

/-- The shift is linear over XOR. -/
theorem crcShift_xor (a b : Byte) : crcShift (a ^^^ b) = crcShift a ^^^ crcShift b := by
  unfold crcShift Config.poly
  rw [BitVec.getLsbD_xor, BitVec.shiftLeft_xor_distrib]
  cases a.getLsbD 7 <;> cases b.getLsbD 7 <;> simp
  · ac_rfl
  · ac_rfl
  · rw [show a <<< 1 ^^^ 49#8 ^^^ (b <<< 1 ^^^ 49#8) = (a <<< 1 ^^^ b <<< 1) ^^^ (49#8 ^^^ 49#8) by ac_rfl]
    simp

theorem crcShifts_xor (n : Nat) (a b : Byte) : crcShifts n (a ^^^ b) = crcShifts n a ^^^ crcShifts n b := by
  induction n generalizing a b with
  | zero => rfl
  | succ n ih => simp [crcShift_xor, ih]

end Sys2Proof.Machine
end

