-- ==== Sys2Proof/Laws/Operands.lean ====
section
/-! SUPPORT. The values of the registers as numbers, one lemma per operand form. -/

namespace Sys2Proof.Machine

open Sys2Proof

theorem toNat_append_eq {n m : Nat} (a : BitVec n) (b : BitVec m) : (a ++ b).toNat = a.toNat * 2 ^ m + b.toNat := by
  rw [BitVec.toNat_append, Nat.shiftLeft_eq, Nat.mul_comm, Nat.two_pow_add_eq_or_of_lt b.isLt]

theorem zext40_eq_ofNat {n : Nat} (v : BitVec n) : zext40 v = BitVec.ofNat 40 v.toNat := by
  apply BitVec.eq_of_toNat_eq; simp [zext40]

theorem highNibble_toNat (b : Byte) : (highNibble b).toNat = b.toNat / 16 := by revert b; decide

theorem lowNibble_toNat (b : Byte) : (lowNibble b).toNat = b.toNat % 16 := by revert b; decide

/-- The codes of 10_state.md R20 as numbers. -/
theorem fsmCode_toNat (f : Fsm) : (fsmCode f).toNat = match f with | .idle => 0 | .recv => 1 | .done => 2 := by
  cases f <;> rfl

theorem shapeCode_toNat (sh : Shape) : (shapeCode sh).toNat = match sh with | .gas5 => 0 | .ht7 => 1 := by
  cases sh <;> rfl

theorem errCode_toNat (e : Err) : (errCode e).toNat = match e with | .none => 0 | .checksum => 1 | .uncal => 2 := by
  cases e <;> rfl

theorem statWord_toNat (s : State) :
    (statWord s).toNat = (fsmCode s.fsm).toNat + 4 * (shapeCode s.shape).toNat + 8 * s.idx.toNat +
      64 * (errCode s.err).toNat + 256 * s.fltIll.toNat + 512 * s.fltSeq.toNat := by
  unfold statWord
  rw [toNat_append_eq, toNat_append_eq, toNat_append_eq, toNat_append_eq, toNat_append_eq]
  cases s.fltSeq <;> cases s.fltIll <;> simp <;> omega

theorem raw32_toNat (s : State) :
    (raw32 s).toNat = (bufByte s 0).toNat * 2 ^ 24 + (bufByte s 1).toNat * 2 ^ 16 + (bufByte s 2).toNat * 2 ^ 8 +
      (bufByte s 3).toNat := by
  unfold raw32; rw [toNat_append_eq, toNat_append_eq, toNat_append_eq]; omega

theorem resistance_toNat (s : State) : (resistance s).toNat = (raw32 s).toNat * 100 := by
  have := (raw32 s).isLt
  simp [resistance, Config.resScale]; omega

theorem tvoc_toNat (s : State) : (tvoc s).toNat = (raw32 s).toNat % 2 ^ 24 := by
  simp [tvoc, Config.tvocMask]
  rw [show 16777215 = 2 ^ 24 - 1 by rfl, Nat.and_two_pow_sub_one_eq_mod]; simp

theorem humidity_toNat (s : State) :
    (humidity s).toNat = (bufByte s 1).toNat * 2 ^ 12 + (bufByte s 2).toNat * 2 ^ 4 + (bufByte s 3).toNat / 16 := by
  unfold humidity; rw [toNat_append_eq, toNat_append_eq, highNibble_toNat]; omega

theorem temperature_toNat (s : State) :
    (temperature s).toNat =
      (bufByte s 3).toNat % 16 * 2 ^ 16 + (bufByte s 4).toNat * 2 ^ 8 + (bufByte s 5).toNat := by
  unfold temperature; rw [toNat_append_eq, toNat_append_eq, lowNibble_toNat]; omega

/-- The buffer as the list of its seven bytes. -/
theorem buf_toList (s : State) :
    s.buf.toList = [bufByte s 0, bufByte s 1, bufByte s 2, bufByte s 3, bufByte s 4, bufByte s 5, bufByte s 6] := by
  apply List.ext_getElem
  · simp
  · intro i h1 h2
    simp at h1
    interval_cases i <;> simp [bufByte]

/-- A mask of one bit reads that bit. -/
theorem and_oneHot_eq_zero (b : Byte) (k : Fin 8) : b &&& 1#8 <<< k.val = 0#8 ↔ b.getLsbD k.val = false := by
  revert b k; decide

end Sys2Proof.Machine
end

