-- ==== Sys2Proof/Laws/PerInstr.lean ====
section
/-! SUPPORT. A statement for every instruction: its word stands in its own row of spec/opcode_table.json
(30_encoding.md R73). -/

namespace Sys2Proof.Laws.TableRow

/-- The word of `i` is of the form its row gives. -/
def Statement (i : Instr) : Prop := (rowOf i).holds (encode i) = true

theorem crcInit : Statement .crcInit := rfl
theorem crcUpd : ∀ b, Statement (.crcUpd b) := by
  show ∀ b : Byte, (rowOf (.crcUpd b)).holds (encode (.crcUpd b)) = true
  decide
theorem frmOpen : ∀ sh, Statement (.frmOpen sh) := fun sh => by cases sh <;> rfl
theorem frmPush : ∀ b, Statement (.frmPush b) := by
  show ∀ b : Byte, (rowOf (.frmPush b)).holds (encode (.frmPush b)) = true
  decide
theorem frmAbort : Statement .frmAbort := rfl
theorem rdStat : Statement .rdStat := rfl
theorem rdCrc : Statement .rdCrc := rfl
theorem rdCrcExp : Statement .rdCrcExp := rfl
theorem rdCrcAct : Statement .rdCrcAct := rfl
theorem rdRaw32 : Statement .rdRaw32 := rfl
theorem rdRes : Statement .rdRes := rfl
theorem rdTvoc : Statement .rdTvoc := rfl
theorem rdSflags : Statement .rdSflags := rfl
theorem rdHum : Statement .rdHum := rfl
theorem rdTemp : Statement .rdTemp := rfl

end Sys2Proof.Laws.TableRow
end

