-- ==== Sys2Proof/Laws/Step.lean ====
section
/-! SUPPORT. All that a command, an issued word and a step can do, said once. -/

namespace Sys2Proof.Machine

open Sys2Proof

/-- What an instruction ends in: an executed command, a refusal SEQ, a read-out, or (a push in no reachable state)
the fault. -/
theorem exec_cases (i : Instr) (s : State) :
    (∃ t, exec i s = complete t ∧ i.reads = none ∧ t.params = s.params ∧ t.pins = s.pins ∧ t.fltIll = s.fltIll ∧
      t.fltSeq = s.fltSeq) ∨
    (exec i s = refuseSeq s ∧ i.reads = none) ∨
    (∃ r, i.reads = some r ∧ exec i s = execRd r s) ∨
    (∃ b, i = .frmPush b ∧ s.fsm = .recv ∧ s.idx.toNat = 7 ∧ exec i s = .fault .noSuchBufferByte) := by
  cases i with
  | crcInit =>
    by_cases h : s.fsm = .idle
    · exact .inl ⟨setCrc Config.seed s, by simp [exec, execCrcInit, h], rfl, rfl, rfl, rfl, rfl⟩
    · exact .inr (.inl ⟨by simp [exec, execCrcInit, h], rfl⟩)
  | crcUpd b =>
    by_cases h : s.fsm = .idle
    · exact .inl ⟨setCrc (crc8Step s.crc b) s, by simp [exec, execCrcUpd, h], rfl, rfl, rfl, rfl, rfl⟩
    · exact .inr (.inl ⟨by simp [exec, execCrcUpd, h], rfl⟩)
  | frmOpen sh => exact .inl ⟨openFrame sh s, rfl, rfl, rfl, rfl, rfl, rfl⟩
  | frmPush b =>
    rcases execFrmPush_cases b s with ⟨-, e⟩ | ⟨h, -, e⟩ | ⟨hf, hi, e⟩
    · exact .inr (.inl ⟨e, rfl⟩)
    · refine .inl ⟨_, e, rfl, ?_, ?_, ?_, ?_⟩ <;>
        (simp only [pushByte, finishFrame, foldByte]; split <;> split <;> simp)
    · exact .inr (.inr (.inr ⟨b, rfl, hf, hi, e⟩))
  | frmAbort => exact .inl ⟨closeFrame s, rfl, rfl, rfl, rfl, rfl, rfl⟩
  | rdStat | rdCrc | rdCrcExp | rdCrcAct | rdRaw32 | rdRes | rdTvoc | rdSflags | rdHum | rdTemp =>
    exact .inr (.inr (.inl ⟨_, rfl, rfl⟩))

theorem exec_rd (r : Reg) (s : State) : exec (Instr.rd r) s = execRd r s := by cases r <;> rfl

/-- What an instruction that answers a next state has done, instruction by instruction. -/
theorem exec_next_cases {i : Instr} {s t : State} (h : exec i s = .next t) :
    (i = .crcInit ∧ s.fsm = .idle ∧ t = respond true 0#40 (setCrc Config.seed s)) ∨
    (∃ b, i = .crcUpd b ∧ s.fsm = .idle ∧ t = respond true 0#40 (setCrc (crc8Step s.crc b) s)) ∨
    ((i = .crcInit ∨ ∃ b, i = .crcUpd b) ∧ s.fsm ≠ .idle ∧ t = respond false 0#40 (setFltSeq s)) ∨
    (∃ sh, i = .frmOpen sh ∧ t = respond true 0#40 (openFrame sh s)) ∨
    (i = .frmAbort ∧ t = respond true 0#40 (closeFrame s)) ∨
    (∃ b, i = .frmPush b ∧ s.fsm ≠ .recv ∧ t = respond false 0#40 (setFltSeq s)) ∨
    (∃ b, ∃ hi : s.idx.toNat < 7, i = .frmPush b ∧ s.fsm = .recv ∧
      t = respond true 0#40 (pushByte ⟨s.idx.toNat, hi⟩ b s)) ∨
    (∃ r ok d, i = Instr.rd r ∧ t = respond ok d s) := by
  rcases reads_cases i with hn | ⟨r, _, rfl⟩
  · cases i with
    | crcInit => simp only [exec, execCrcInit] at h; split at h <;> cases h <;> simp_all
    | crcUpd b => simp only [exec, execCrcUpd] at h; split at h <;> cases h <;> simp_all
    | frmOpen sh => cases h; simp
    | frmAbort => cases h; simp
    | frmPush b =>
      rcases execFrmPush_cases b s with ⟨hf, e⟩ | ⟨hi, hf, e⟩ | ⟨hf, hi, e⟩ <;> simp only [exec] at h <;>
        rw [e] at h <;> cases h
      · iterate 5 right
        exact .inl ⟨b, rfl, hf, rfl⟩
      · iterate 6 right
        exact .inl ⟨b, hi, rfl, hf, rfl⟩
    | rdStat | rdCrc | rdCrcExp | rdCrcAct | rdRaw32 | rdRes | rdTvoc | rdSflags | rdHum | rdTemp =>
      simp [Instr.reads] at hn
  · obtain ⟨ok, d, e⟩ := execRd_spec r s
    rw [exec_rd, e] at h
    cases h
    iterate 7 right
    exact ⟨r, ok, d, rfl, rfl⟩

theorem issue_legal {w : CmdWord} {i : Instr} (h : decode w = .ok i) (s : State) : issue w s = exec i s := by
  simp [issue, h]

theorem issue_illegal {w : CmdWord} {e : Illegal} (h : decode w = .error e) (s : State) :
    issue w s = refuseIll s := by
  simp [issue, h]

/-- All an edge can do. -/
theorem clockEdge_cases (p : PortIn) (s : State) :
    (p.rst = true ∧ clockEdge p s = .next (resetBlock s)) ∨
    (p.rst = false ∧ p.cmdValid = true ∧ clockEdge p s = issue p.cmd s) ∨
    (p.rst = false ∧ p.cmdValid = false ∧ clockEdge p s = .next (idleEdge s)) := by
  unfold clockEdge; cases p.rst <;> cases p.cmdValid <;> simp

@[simp] theorem andThen_next (s : State) (g : State → Outcome) : andThen (.next s) g = g s := rfl

@[simp] theorem execAll_nil (s : State) : execAll [] s = .next s := rfl

@[simp] theorem execAll_cons (i : Instr) (is : List Instr) (s : State) :
    execAll (i :: is) s = andThen (exec i s) (execAll is) := rfl

theorem execAll_append (as bs : List Instr) (s : State) :
    execAll (as ++ bs) s = andThen (execAll as s) (execAll bs) := by
  induction as generalizing s with
  | nil => rfl
  | cons i as ih => simp only [List.cons_append, execAll_cons]; cases exec i s <;> simp [andThen, ih]

@[simp] theorem issueAll_nil (s : State) : issueAll [] s = .next s := rfl

@[simp] theorem issueAll_cons (w : CmdWord) (ws : List CmdWord) (s : State) :
    issueAll (w :: ws) s = andThen (issue w s) (issueAll ws) := rfl

end Sys2Proof.Machine
end

