-- ==== Sys2Proof/Machine/Asm.lean ====
section
/-! DEFINITION. The assembler syntax of 30_encoding.md R81 and R82: one line of text, as a list of characters, to
commands. A line is split at spaces, tabs and commas (notes/assumptions/12.md). -/

namespace Sys2Proof.Machine

open Sys2Proof

/-- Why a line is no command. -/
inductive AsmError where
  /-- The first word is no mnemonic. -/
  | unknownMnemonic
  /-- The operands are not those of the mnemonic. -/
  | badOperands
deriving DecidableEq, Repr

/-- The line up to its comment. -/
def dropComment : List Char → List Char
  | [] => []
  | c :: cs => if c = '#' then [] else c :: dropComment cs

/-- A character that separates words. -/
def isSeparator (c : Char) : Bool := c = ' ' ∨ c = '\t' ∨ c = ','

/-- The words of a line; `acc` is the word being read, last character first. -/
def splitWords (acc : List Char) : List Char → List (List Char)
  | [] => if acc = [] then [] else [acc.reverse]
  | c :: cs =>
    if isSeparator c then (if acc = [] then splitWords [] cs else acc.reverse :: splitWords [] cs)
    else splitWords (c :: acc) cs

/-- The value of a digit in base 16. -/
def digitValue (c : Char) : Option Nat :=
  if '0' ≤ c ∧ c ≤ '9' then some (c.toNat - 48)
  else if 'a' ≤ c ∧ c ≤ 'f' then some (c.toNat - 87)
  else if 'A' ≤ c ∧ c ≤ 'F' then some (c.toNat - 55)
  else none

/-- The number digits write in a base, none where one is no digit of it. -/
def readNumber (base acc : Nat) : List Char → Option Nat
  | [] => some acc
  | c :: cs =>
    match digitValue c with
    | some d => if d < base then readNumber base (acc * base + d) cs else none
    | none => none

/-- An `imm8`: `0xNN`, or a decimal number 0 to 255 (30_encoding.md R81). -/
def parseImm8 (word : List Char) : Option Byte :=
  match word with
  | ['0', 'x', h, l] => (readNumber 16 0 [h, l]).map (BitVec.ofNat 8)
  | c :: cs =>
    match readNumber 10 0 (c :: cs) with
    | some n => if n < 256 then some (BitVec.ofNat 8 n) else none
    | none => none
  | [] => none

/-- All words as `imm8`, none where one is not. -/
def parseBytes : List (List Char) → Option (List Byte)
  | [] => some []
  | w :: ws =>
    match parseImm8 w, parseBytes ws with
    | some b, some bs => some (b :: bs)
    | _, _ => none

/-- A `shape` word. -/
def parseShape (word : List Char) : Option Shape :=
  if word = ['g', 'a', 's', '5'] then some .gas5
  else if word = ['h', 't', '7'] then some .ht7
  else none

/-- The ten register names (10_state.md R31). -/
def regNames : List (List Char × Reg) :=
  [(['s', 't', 'a', 't'], .stat), (['c', 'r', 'c'], .crc), (['c', 'r', 'c', '_', 'e', 'x', 'p'], .crcExp),
    (['c', 'r', 'c', '_', 'a', 'c', 't'], .crcAct), (['r', 'a', 'w', '3', '2'], .raw32)] ++
  [(['r', 'e', 's'], .res), (['t', 'v', 'o', 'c'], .tvoc), (['s', 'f', 'l', 'a', 'g', 's'], .sflags),
    (['h', 'u', 'm'], .hum), (['t', 'e', 'm', 'p'], .temp)]

/-- The mnemonics with the form of what follows them (30_encoding.md R73, R82). -/
inductive AsmForm where
  | crcInit | crcUpd | frmOpen | frmPush | frmAbort | rd
  | crcSum | frmLoad | gasRes | gasTvoc | htMeas | frmClose
deriving DecidableEq, Repr

/-- The mnemonics, in lower case with a dot (30_encoding.md R81). -/
def asmNames : List (List Char × AsmForm) :=
  [(['c', 'r', 'c', '.', 'i', 'n', 'i', 't'], .crcInit), (['c', 'r', 'c', '.', 'u', 'p', 'd'], .crcUpd),
    (['f', 'r', 'm', '.', 'o', 'p', 'e', 'n'], .frmOpen), (['f', 'r', 'm', '.', 'p', 'u', 's', 'h'], .frmPush),
    (['f', 'r', 'm', '.', 'a', 'b', 'o', 'r', 't'], .frmAbort), (['r', 'd'], .rd)] ++
  [(['c', 'r', 'c', '.', 's', 'u', 'm'], .crcSum), (['f', 'r', 'm', '.', 'l', 'o', 'a', 'd'], .frmLoad),
    (['g', 'a', 's', '.', 'r', 'e', 's'], .gasRes), (['g', 'a', 's', '.', 't', 'v', 'o', 'c'], .gasTvoc),
    (['h', 't', '.', 'm', 'e', 'a', 's'], .htMeas), (['f', 'r', 'm', '.', 'c', 'l', 'o', 's', 'e'], .frmClose)]

/-- What a table of names gives a word. -/
def lookUp (table : List (List Char × α)) (word : List Char) : Option α :=
  (table.find? (fun e => e.1 = word)).map (·.2)

/-- A well-formed pseudo-instruction as its commands. -/
def expandWellFormed (p : Pseudo) : Option (List Instr) :=
  if pseudoWellFormed p then some (expandPseudo p) else none

/-- The commands a mnemonic and its operand words stand for. -/
def parseForm (f : AsmForm) (ops : List (List Char)) : Option (List Instr) :=
  match f, ops with
  | .crcInit, [] => some [.crcInit]
  | .crcUpd, [b] => (parseImm8 b).map (fun v => [.crcUpd v])
  | .frmOpen, [sh] => (parseShape sh).map (fun v => [.frmOpen v])
  | .frmPush, [b] => (parseImm8 b).map (fun v => [.frmPush v])
  | .frmAbort, [] => some [.frmAbort]
  | .rd, [r] => (lookUp regNames r).map (fun v => [Instr.rd v])
  | .crcSum, bs => (parseBytes bs).bind (fun v => expandWellFormed (.crcSum v))
  | .frmLoad, sh :: bs =>
    match parseShape sh, parseBytes bs with
    | some v, some vs => expandWellFormed (.frmLoad v vs)
    | _, _ => none
  | .gasRes, [] => some (expandPseudo .gasRes)
  | .gasTvoc, [] => some (expandPseudo .gasTvoc)
  | .htMeas, [] => some (expandPseudo .htMeas)
  | .frmClose, [] => some (expandPseudo .frmClose)
  | _, _ => none

/-- One line of assembler text (30_encoding.md R81). A blank or comment line is no command. -/
def assembleLine (line : List Char) : Except AsmError (List Instr) :=
  match splitWords [] (dropComment line) with
  | [] => .ok []
  | m :: ops =>
    match lookUp asmNames m with
    | none => .error .unknownMnemonic
    | some f =>
      match parseForm f ops with
      | some is => .ok is
      | none => .error .badOperands

end Sys2Proof.Machine
end

