-- ==== Sys2Proof/Tests/Slice0.lean ====
section
/-! SUPPORT. The model's own tests. Expected values are those of spec/95_test_vectors.md (the vector is named with
each) or words written out from spec/30_encoding.md; and a witness for every obligation that has hypotheses. -/

namespace Sys2Proof.Tests.Slice0

open Sys2Proof Sys2Proof.Machine

/-! ### Helpers -/

/-- What a function sees of the next state, none where there is none. -/
def seen (f : State → α) : Outcome → Option α
  | .next t => some (f t)
  | .fault _ => none
  | .refused _ => none

/-- A state in RECV. -/
def recvState (sh : Shape) (i : BitVec 3) (c : Byte) (bytes : Vector Byte 7) : State :=
  { State.reset with fsm := .recv, shape := sh, idx := i, crc := c, buf := bytes }

/-- A state in DONE. -/
def doneState (sh : Shape) (c : Byte) (e : Err) (bytes : Vector Byte 7) : State :=
  { State.reset with fsm := .done, shape := sh, idx := BitVec.ofNat 3 (Config.len sh), crc := c, err := e,
                     buf := bytes }

/-- Vector G1, after its last push. -/
def g1 : State := doneState .gas5 0xC3#8 .none #v[0x21#8, 0x02#8, 0x03#8, 0x76#8, 0xC3#8, 0x00#8, 0x00#8]

/-- Vector G2. -/
def g2 : State := doneState .gas5 0xC3#8 .checksum #v[0x21#8, 0x02#8, 0x03#8, 0x76#8, 0xC2#8, 0x00#8, 0x00#8]

/-- Vector G6. -/
def g6 : State := doneState .gas5 0x22#8 .none #v[0xAB#8, 0x00#8, 0x01#8, 0x00#8, 0x22#8, 0x00#8, 0x00#8]

/-- Vector G7. -/
def g7 : State := doneState .gas5 0xE9#8 .none #v[0x02#8, 0x8F#8, 0x5C#8, 0x29#8, 0xE9#8, 0x00#8, 0x00#8]

/-- Vector H1. -/
def h1 : State := doneState .ht7 0x34#8 .none #v[0x1C#8, 0x19#8, 0x99#8, 0x9A#8, 0x19#8, 0x99#8, 0x34#8]

/-- Vector H3. -/
def h3 : State := doneState .ht7 0x83#8 .uncal #v[0x10#8, 0x19#8, 0x99#8, 0x9A#8, 0x19#8, 0x99#8, 0x83#8]

/-- Vector H8. -/
def h8 : State := doneState .ht7 0x00#8 .none #v[0x08#8, 0x12#8, 0x34#8, 0x56#8, 0x78#8, 0x9A#8, 0x00#8]

/-- Vector G1 with its first byte pushed: `crc8_step(0xFF, 0x21) = 0x1B`. -/
def g1One : State := recvState .gas5 1#3 0x1B#8 #v[0x21#8, 0x00#8, 0x00#8, 0x00#8, 0x00#8, 0x00#8, 0x00#8]

/-- Vector G1 with its four data bytes pushed. -/
def g1Four : State := recvState .gas5 4#3 0xC3#8 #v[0x21#8, 0x02#8, 0x03#8, 0x76#8, 0x00#8, 0x00#8, 0x00#8]

/-- Vectors H3 and H4 with their six data bytes pushed. -/
def h4Six : State := recvState .ht7 6#3 0x83#8 #v[0x10#8, 0x19#8, 0x99#8, 0x9A#8, 0x19#8, 0x99#8, 0x00#8]

/-- The pins with a word presented at the next edge. -/
def presenting (w : CmdWord) (s : State) : State := { s with pins := [commandInput w] }

/-! ### Well-formedness: an ill-formed term for each check -/

theorem test_operand_none_refuses : wordLegal 0x101#12 = false ∧ wordLegal 0x501#12 = false := by decide
theorem test_operand_shape_refuses : wordLegal 0x302#12 = false := by decide
theorem test_operand_reg_refuses : wordLegal 0x60A#12 = false := by decide
theorem test_reserved_opcode_refuses : wordLegal 0x000#12 = false ∧ wordLegal 0x700#12 = false := by decide
theorem test_operand_imm8_admits_all : wordLegal 0x2FF#12 = true ∧ wordLegal 0x400#12 = true := by decide
theorem test_crc_sum_refuses_no_bytes : pseudoWellFormed (.crcSum []) = false := by decide
theorem test_frm_load_refuses_wrong_count : pseudoWellFormed (.frmLoad .gas5 [0x00#8]) = false := by decide
theorem test_params_refuse_equal_masks : paramsWellFormed ⟨3, 3⟩ = false ∧ paramsWellFormed Config.Params.default = true := by
  decide

/-! ### Decoding: a word of every constructor, written out from 30_encoding.md R73 -/

theorem test_decode_crc_init : decode 0b000100000000#12 = .ok .crcInit := rfl
theorem test_decode_crc_upd : decode 0b001011000011#12 = .ok (.crcUpd 0xC3#8) := rfl
theorem test_decode_frm_open_gas5 : decode 0b001100000000#12 = .ok (.frmOpen .gas5) := rfl
theorem test_decode_frm_open_ht7 : decode 0b001100000001#12 = .ok (.frmOpen .ht7) := rfl
theorem test_decode_frm_push : decode 0b010000100001#12 = .ok (.frmPush 0x21#8) := rfl
theorem test_decode_frm_abort : decode 0b010100000000#12 = .ok .frmAbort := rfl
theorem test_decode_rd_stat : decode 0b011000000000#12 = .ok .rdStat := rfl
theorem test_decode_rd_crc : decode 0b011000000001#12 = .ok .rdCrc := rfl
theorem test_decode_rd_crc_exp : decode 0b011000000010#12 = .ok .rdCrcExp := rfl
theorem test_decode_rd_crc_act : decode 0b011000000011#12 = .ok .rdCrcAct := rfl
theorem test_decode_rd_raw32 : decode 0b011000000100#12 = .ok .rdRaw32 := rfl
theorem test_decode_rd_res : decode 0b011000000101#12 = .ok .rdRes := rfl
theorem test_decode_rd_tvoc : decode 0b011000000110#12 = .ok .rdTvoc := rfl
theorem test_decode_rd_sflags : decode 0b011000000111#12 = .ok .rdSflags := rfl
theorem test_decode_rd_hum : decode 0b011000001000#12 = .ok .rdHum := rfl
theorem test_decode_rd_temp : decode 0b011000001001#12 = .ok .rdTemp := rfl
theorem test_decode_rejects_by_name :
    decode 0x000#12 = .error .reservedOpcode ∧ decode 0xFFF#12 = .error .reservedOpcode ∧
    decode 0x1FF#12 = .error .operandNotZero ∧ decode 0x3FF#12 = .error .reservedShape ∧
    decode 0x6FF#12 = .error .reservedRegister := by
  exact ⟨rfl, rfl, rfl, rfl, rfl⟩
theorem test_decode_table_word : decodeTableWord 12 0x2C3 = some (.crcUpd 0xC3#8) ∧
    decodeTableWord 16 0x2C3 = some (.crcUpd 0xC3#8) ∧ decodeTableWord 12 0x101 = none := by
  exact ⟨rfl, rfl, rfl⟩

/-! ### The instructions -/

/-- Section 2.3. -/
theorem test_crc_step : crc8Step 0xFF#8 0xBE#8 = 0x0C#8 ∧ crc8Step 0xFF#8 0xFF#8 = 0x00#8 := by decide +kernel

/-- Section 2.1, the rows of "123456789" and of `76 03 02 21`. -/
theorem test_crc8 : crc8 [0x31#8, 0x32#8, 0x33#8, 0x34#8, 0x35#8, 0x36#8, 0x37#8, 0x38#8, 0x39#8] = 0xF7#8 ∧
    crc8 [0x76#8, 0x03#8, 0x02#8, 0x21#8] = 0xD2#8 := by decide +kernel

/-- A register other than the seed is seeded. -/
theorem test_crc_init : seen (fun t => (t.crc, t.rsp)) (exec .crcInit { State.reset with crc := 0x92#8 }) =
    some (0xFF#8, some ⟨true, 0#40⟩) := by decide +kernel

/-- Section 2.9, `crc.init` in DONE. -/
theorem test_crc_init_in_done : seen (fun t => (t.crc, t.fltSeq, t.rsp)) (exec .crcInit g1) =
    some (0xC3#8, true, some ⟨false, 0#40⟩) := by decide +kernel

/-- P1, its second command. -/
theorem test_crc_upd : seen (fun t => (t.crc, t.rsp)) (exec (.crcUpd 0xBE#8) State.reset) =
    some (0x0C#8, some ⟨true, 0#40⟩) := by decide +kernel

/-- Section 2.9, `crc.upd 0xAA` in RECV. -/
theorem test_crc_upd_in_recv : seen (fun t => (t.crc, t.fltSeq)) (exec (.crcUpd 0xAA#8) g1One) =
    some (0x1B#8, true) := by decide +kernel

/-- From DONE with a sticky bit set: the new frame, the bit kept. -/
theorem test_frm_open : seen (fun t => (statWord t, t.crc, bufByte t 3)) (exec (.frmOpen .ht7) { h3 with fltIll := true }) =
    some (0x105#10, 0xFF#8, 0x00#8) := by decide +kernel

/-- A data byte: stored, counted, folded. -/
theorem test_frm_push_data : seen (fun t => (statWord t, t.crc, bufByte t 1)) (exec (.frmPush 0x02#8) g1One) =
    some (0x011#10, 0xCB#8, 0x02#8) := by decide +kernel

/-- H4, its last push: CHECKSUM wins over the clear calibration flag. -/
theorem test_frm_push_last : seen (fun t => (statWord t, t.crc)) (exec (.frmPush 0x00#8) h4Six) =
    some (0x07E#10, 0x83#8) := by decide +kernel

/-- From DONE with both sticky bits set, which stay. -/
theorem test_frm_abort : seen (fun t => (statWord t, t.crc, bufByte t 0))
      (exec .frmAbort { h1 with fltIll := true, fltSeq := true }) = some (0x300#10, 0xFF#8, 0x00#8) := by
  decide +kernel

/-- Section 2.5, the partial frame: RECV, HT7, IDX 3. -/
theorem test_rd_stat : seen (·.rsp) (exec .rdStat (recvState .ht7 3#3 0x88#8
      #v[0x1C#8, 0x19#8, 0x99#8, 0x00#8, 0x00#8, 0x00#8, 0x00#8])) = some (some ⟨true, 0x01D#40⟩) := by decide +kernel

/-- G2, H3. -/
theorem test_rd_stat_verdicts : seen (·.rsp) (exec .rdStat g2) = some (some ⟨true, 0x06A#40⟩) ∧
    seen (·.rsp) (exec .rdStat h3) = some (some ⟨true, 0x0BE#40⟩) := by decide +kernel

/-- G2. -/
theorem test_rd_crc : seen (·.rsp) (exec .rdCrc g2) = some (some ⟨true, 0xC3#40⟩) := by decide +kernel
theorem test_rd_crc_exp : seen (·.rsp) (exec .rdCrcExp g2) = some (some ⟨true, 0xC3#40⟩) := by decide +kernel
theorem test_rd_crc_act : seen (·.rsp) (exec .rdCrcAct g2) = some (some ⟨true, 0xC2#40⟩) := by decide +kernel

/-- H3: the checksum byte of the other shape. -/
theorem test_rd_crc_act_ht7 : seen (·.rsp) (exec .rdCrcAct h3) = some (some ⟨true, 0x83#40⟩) := by decide +kernel

/-- G6, and G2 where the gate is closed. -/
theorem test_rd_raw32 : seen (·.rsp) (exec .rdRaw32 g6) = some (some ⟨true, 0xAB000100#40⟩) ∧
    seen (·.rsp) (exec .rdRaw32 g2) = some (some ⟨false, 0#40⟩) := by decide +kernel

/-- G7: the product needs more than 32 bits. -/
theorem test_rd_res : seen (·.rsp) (exec .rdRes g7) = some (some ⟨true, 0x100000004#40⟩) := by decide +kernel

/-- G6: the top byte is masked. -/
theorem test_rd_tvoc : seen (·.rsp) (exec .rdTvoc g6) = some (some ⟨true, 0x100#40⟩) := by decide +kernel

/-- H1, and H3 where the gate is closed. -/
theorem test_rd_sflags : seen (·.rsp) (exec .rdSflags h1) = some (some ⟨true, 0x1C#40⟩) ∧
    seen (·.rsp) (exec .rdSflags h3) = some (some ⟨false, 0#40⟩) := by decide +kernel

/-- H1 and H8: the nibble split. -/
theorem test_rd_hum : seen (·.rsp) (exec .rdHum h1) = some (some ⟨true, 0x19999#40⟩) ∧
    seen (·.rsp) (exec .rdHum h8) = some (some ⟨true, 0x12345#40⟩) := by decide +kernel
theorem test_rd_temp : seen (·.rsp) (exec .rdTemp h1) = some (some ⟨true, 0xA1999#40⟩) ∧
    seen (·.rsp) (exec .rdTemp h8) = some (some ⟨true, 0x6789A#40⟩) := by decide +kernel

/-! ### The step, the assembler, the consumer -/

/-- Section 2.9, the first row, as a step; P1's second command through `withFetchWord`. -/
theorem test_step_push_in_idle : seen (fun t => (statWord t, t.rsp)) (step (presenting 0x421#12 State.reset)) =
    some (0x200#10, some ⟨false, 0#40⟩) := by decide +kernel
theorem test_step_with_fetch_word : seen (fun t => (t.crc, t.pins)) (step (State.reset.withFetchWord 12 0x2BE)) =
    some (0x0C#8, []) := by decide +kernel

/-- Section 2.9: an illegal word, and one dropped by a reset at the same edge. -/
theorem test_step_illegal_word : seen (fun t => (statWord t, t.crc)) (step (presenting 0x60A#12 g1)) =
    some (0x12A#10, 0xC3#8) := by decide +kernel
theorem test_step_reset_drops_command :
    seen (fun t => (statWord t, t.rsp)) (step { g2 with pins := [⟨true, true, 0x600#12⟩], fltIll := true }) =
      some (0x000#10, none) := by decide +kernel

/-- 30_encoding.md R81: both spellings of a byte, a comment, a register name. -/
theorem test_assemble_line :
    assembleLine ("crc.upd 0xBE # first").toList = .ok [.crcUpd 0xBE#8] ∧
    assembleLine ("crc.upd 190").toList = .ok [.crcUpd 0xBE#8] ∧
    assembleLine ("rd crc_exp").toList = .ok [.rdCrcExp] ∧ assembleLine ("# nothing").toList = .ok [] := by
  decide +kernel

/-- 30_encoding.md R82, and what is refused. -/
theorem test_assemble_pseudo :
    assembleLine ("crc.sum 0xBE, 0xEF").toList = .ok [.crcInit, .crcUpd 0xBE#8, .crcUpd 0xEF#8, .rdCrc] ∧
    assembleLine ("crc.sum").toList = .error .badOperands ∧
    assembleLine ("crc.upd 256").toList = .error .badOperands ∧
    assembleLine ("nop").toList = .error .unknownMnemonic := by
  decide +kernel

/-- Section 2.6. -/
theorem test_consumer_values : relativeHumidity 524288#20 = 50 ∧ celsius 262144#20 = 0 ∧ celsius 0#20 = -50 := by
  norm_num [relativeHumidity, celsius]

/-! ### Witnesses: every obligation's hypotheses are met together -/

theorem witness_DecodeAndEncodeAgree : decode 0x6FF#12 = .error .reservedRegister ∧ encode (.frmPush 0xFF#8) = 0x4FF#12 := by
  exact ⟨rfl, rfl⟩

/-- One word of each branch of the pseudocode: the two fields and what is answered. -/
theorem witness_DecoderFollowsThePseudocode :
    (0x100#12).toNat / 256 = 0x1 ∧ (0x100#12).toNat % 256 = 0x00 ∧ (0x2FF#12).toNat / 256 = 0x2 ∧
    (0x300#12).toNat / 256 = 0x3 ∧ (0x300#12).toNat % 256 = 0 ∧ (0x301#12).toNat % 256 = 1 ∧
    (0x4FF#12).toNat / 256 = 0x4 ∧ (0x500#12).toNat / 256 = 0x5 ∧ (0x500#12).toNat % 256 = 0 ∧
    (List.range 10).all (fun n => (BitVec.ofNat 12 (0x600 + n)).toNat / 256 = 6 ∧
      (BitVec.ofNat 12 (0x600 + n)).toNat % 256 = n) ∧
    (0x60A#12).toNat / 256 = 6 ∧ ¬ (0x60A#12).toNat % 256 ≤ 0x09 := by
  decide

theorem witness_IllegalWordsAreRefused :
    decode 0x700#12 = .error .reservedOpcode ∧ decode 0x101#12 = .error .operandNotZero ∧
    decode 0x302#12 = .error .reservedShape ∧ decode 0x60A#12 = .error .reservedRegister := by
  exact ⟨rfl, rfl, rfl, rfl⟩

theorem witness_StepRunsTheDecodedInstruction :
    (presenting 0x2C3#12 g1).pins = commandInput 0x2C3#12 :: [] ∧ (commandInput 0x2C3#12).rst = false ∧
    (commandInput 0x2C3#12).cmdValid = true ∧ decode (commandInput 0x2C3#12).cmd = .ok (.crcUpd 0xC3#8) := by
  exact ⟨rfl, rfl, rfl, rfl⟩

theorem witness_EdgeWithoutCommandChangesNothing :
    ({ g1 with pins := [noInput] } : State).pins = noInput :: [] ∧ noInput.rst = false ∧ noInput.cmdValid = false ∧
    g1.pins = [] := by
  exact ⟨rfl, rfl, rfl, rfl⟩

theorem witness_ResetEdgeGivesTheResetState :
    (⟨true, true, 0xFFF#12⟩ : PortIn).rst = true ∧ (commandInput 0x100#12).rst = false ∧
    ∃ t, clockEdge (commandInput 0x100#12) { g1 with fltIll := true, fltSeq := true } = .next t := by
  exact ⟨rfl, rfl, _, rfl⟩

theorem witness_RunIsTheFoldOverTheCommands :
    ({ g1 with pins := [commandInput 0x500#12, commandInput 0x2FF#12, noInput] } : State).pins =
      [0x500#12, 0x2FF#12].map commandInput ++ [noInput] := by
  rfl

theorem witness_StepKeepsParametersAndTakesOneInput : ∃ t, step (presenting 0x600#12 h1) = .next t := ⟨_, rfl⟩

theorem witness_CrcInitSeedsInIdleElseRefused :
    State.reset.fsm = .idle ∧ g1One.fsm ≠ .idle ∧ g1.fsm ≠ .idle := by decide

theorem witness_CrcUpdFoldsByteSequence :
    State.reset.fsm = .idle ∧ g1One.fsm ≠ .idle ∧
    [0x600#12, 0x100#12, 0x2BE#12, 0x4FF#12, 0xFFF#12, 0x2EF#12].filter
        (fun w => opcOf w = 0x2#4 ∨ w ∈ [0x100#12, 0x300#12, 0x301#12, 0x500#12]) =
      0x100#12 :: [0xBE#8, 0xEF#8].map (fun b => 0x200#12 ||| b.setWidth 12) := by
  decide

theorem witness_CrcSumAnswersTheChecksum : ({ State.reset with crc := 0x92#8, fltSeq := true } : State).fsm = .idle := rfl

theorem witness_ChecksumIsAffine : [0x21#8, 0x02#8].length = [0x80#8, 0x01#8].length := rfl

/-- The first and the last data byte, and the checksum byte, of both shapes; and the refused states. -/
theorem witness_FrmPushStoresFoldsAndLatches :
    State.reset.fsm ≠ .recv ∧ g1.fsm ≠ .recv ∧
    (∀ sh, ∀ i : BitVec 3, i ∈ [0#3, BitVec.ofNat 3 (Config.len sh - 2)] →
      (recvState sh i 0xFF#8 g1.buf).fsm = .recv ∧ (recvState sh i 0xFF#8 g1.buf).idx.toNat < 7 ∧
      (recvState sh i 0xFF#8 g1.buf).idx.toNat + 1 < Config.len (recvState sh i 0xFF#8 g1.buf).shape) ∧
    (g1Four.fsm = .recv ∧ g1Four.idx.toNat < 7 ∧ g1Four.idx.toNat + 1 = Config.len g1Four.shape) ∧
    h4Six.fsm = .recv ∧ h4Six.idx.toNat < 7 ∧ h4Six.idx.toNat + 1 = Config.len h4Six.shape := by
  refine ⟨by decide, by decide, ?_, by decide, by decide⟩
  intro sh; cases sh <;> decide

theorem witness_PushBeyondTheFrame :
    (∀ i : BitVec 3, i ∈ [5#3, 6#3] → (recvState .gas5 i 0xFF#8 g1.buf).fsm = .recv ∧
      Config.len (recvState .gas5 i 0xFF#8 g1.buf).shape ≤ (recvState .gas5 i 0xFF#8 g1.buf).idx.toNat ∧
      (recvState .gas5 i 0xFF#8 g1.buf).idx.toNat < 7) ∧
    ∀ sh : Shape, sh ∈ [Shape.gas5, .ht7] → (recvState sh 7#3 0xFF#8 g1.buf).fsm = .recv ∧
      Config.len (recvState sh 7#3 0xFF#8 g1.buf).shape ≤ (recvState sh 7#3 0xFF#8 g1.buf).idx.toNat ∧
      (recvState sh 7#3 0xFF#8 g1.buf).idx = 7#3 := by
  decide

theorem witness_VerdictChecksumBeforeCalibration :
    g1.shape = .gas5 ∧ (h4Six.shape = .ht7 ∧ h4Six.crc ≠ bufByte h4Six 6) ∧
    (h3.shape = .ht7 ∧ h3.crc = bufByte h3 6 ∧ (bufByte h3 0).getLsbD h3.params.calBit.val = false) ∧
    h1.shape = .ht7 ∧ h1.crc = bufByte h1 6 ∧ (bufByte h1 0).getLsbD h1.params.calBit.val = true := by
  decide

theorem witness_FrameAcceptance :
    [0x21#8, 0x02#8, 0x03#8, 0x76#8, 0xC2#8].length = Config.len .gas5 ∧
    [Instr.frmPush 0x21#8, .rdStat, .frmPush 0x02#8, .frmPush 0x03#8, .frmPush 0x76#8, .rdTemp,
      .frmPush 0xC2#8].filter (fun i => i.reads.isNone) =
      [0x21#8, 0x02#8, 0x03#8, 0x76#8, 0xC2#8].map .frmPush := by
  decide

/-- ERR written by a last push, cleared by an abort; and a word in DONE that is neither `frm.open` nor `frm.abort`. -/
theorem witness_VerdictIsFixedUntilOpenOrAbort :
    (∃ t, issue 0x400#12 h4Six = .next t ∧ t.err ≠ h4Six.err) ∧ h4Six.fsm = .recv ∧
    decode 0x400#12 = .ok (.frmPush 0x00#8) ∧ h4Six.idx.toNat + 1 = Config.len h4Six.shape ∧
    (∃ t, clockEdge ⟨true, false, 0#12⟩ g2 = .next t) ∧ (∃ t, issue 0x500#12 g2 = .next t ∧ t.err ≠ g2.err) ∧
    g2.fsm = .done ∧ (∃ t, issue 0x4FF#12 g2 = .next t) ∧ (∀ sh, decode 0x4FF#12 ≠ .ok (.frmOpen sh)) ∧
    decode 0x4FF#12 ≠ .ok .frmAbort := by
  refine ⟨⟨_, rfl, by decide +kernel⟩, rfl, rfl, rfl, ⟨_, rfl⟩, ⟨_, rfl, by decide +kernel⟩, rfl, ⟨_, rfl⟩, ?_, ?_⟩
  · intro sh h; cases h
  · intro h; cases h

/-- Vector G1 whole, its last byte the one to flip a bit of. -/
theorem witness_FlippedBitOfAcceptedFrameIsCaught :
    [0x21#8, 0x02#8, 0x03#8, 0x76#8, 0xC3#8].length = Config.len .gas5 ∧ 4 < Config.len .gas5 ∧
    ∃ t, execAll (expandPseudo (.frmLoad .gas5 [0x21#8, 0x02#8, 0x03#8, 0x76#8, 0xC3#8])) State.reset = .next t ∧
      Accepted t := by
  refine ⟨rfl, by decide, _, rfl, ?_⟩
  decide +kernel

theorem witness_OpenedFrameForgetsThePast :
    g2.fltIll = h1.fltIll ∧ g2.fltSeq = h1.fltSeq ∧ g2.params = h1.params ∧ g2 ≠ h1 := by decide

theorem witness_RejectedFrameRevealsNoData :
    g2.fsm = .done ∧ g2.err ≠ .none ∧
    bufByte g2 (checksumIndex g2.shape) =
      bufByte { g2 with buf := #v[0x00#8, 0x00#8, 0x00#8, 0x01#8, 0xC2#8, 0x00#8, 0x00#8] } (checksumIndex g2.shape) := by
  decide

/-- A refused command, an executed one, an illegal word, a read with a value and one with none. -/
theorem witness_EveryWordIsAnswered :
    (∃ t, issue 0x100#12 g1 = .next t) ∧ (∃ t, issue 0x500#12 g1 = .next t) ∧ (∃ t, issue 0xFFF#12 g1 = .next t) ∧
    (∃ t, issue 0x604#12 g1 = .next t) ∧ decode 0x604#12 = .ok (Instr.rd .raw32) ∧
    readReg .raw32 g1 = some 0x21020376#40 ∧ readReg .temp g1 = none := by
  exact ⟨⟨_, rfl⟩, ⟨_, rfl⟩, ⟨_, rfl⟩, ⟨_, rfl⟩, rfl, by decide +kernel, by decide +kernel⟩

theorem witness_ChecksumDiagnosticsReadableInDone :
    (g2.fsm = .done ∧ g2.shape = .gas5) ∧ (h3.fsm = .done ∧ h3.shape = .ht7) ∧ g1Four.fsm ≠ .done ∧
    StateInv g2 ∧ StateInv h3 :=
  ⟨by decide, by decide, by decide, by decide +kernel, by decide +kernel⟩

theorem witness_GasFieldsOfAcceptedFrame :
    (g1.fsm = .done ∧ g1.err = .none ∧ g1.shape = .gas5) ∧ ¬(g2.fsm = .done ∧ g2.err = .none ∧ g2.shape = .gas5) := by
  decide

theorem witness_HumidityTemperatureFieldsOfAcceptedFrame :
    (h1.fsm = .done ∧ h1.err = .none ∧ h1.shape = .ht7) ∧ ¬(h3.fsm = .done ∧ h3.err = .none ∧ h3.shape = .ht7) := by
  decide

theorem witness_ReadsHaveNoSideEffect : readReg .hum h1 = some 0x19999#40 ∧ readReg .raw32 h1 = none ∧
    0x0A ≤ (0x0A#8).toNat := by
  decide +kernel

theorem witness_ReadableStatusByteIsCalibrated : StateInv h1 ∧ readReg .sflags h1 = some 0x1C#40 ∧
    paramsWellFormed ⟨0, 7⟩ = true := by decide +kernel

theorem witness_ReadableFieldsImplyEqualChecksums :
    StateInv g1 ∧ Reg.tvoc ∈ [Reg.raw32, .res, .tvoc, .sflags, .hum, .temp] ∧ readReg .tvoc g1 = some 0x20376#40 := by
  decide +kernel

theorem witness_SequenceFaultsExactlyAsListed :
    (∃ t, exec .crcInit g1One = .next t ∧ g1One.fsm = .recv) ∧
    (∃ t, exec (.frmPush 0x21#8) State.reset = .next t ∧ State.reset.fsm = .idle) ∧
    ∃ t, exec (.frmPush 0x02#8) g1One = .next t ∧ ¬(g1One.fsm = .idle ∨ g1One.fsm = .done) := by
  exact ⟨⟨_, rfl, rfl⟩, ⟨_, rfl, rfl⟩, _, rfl, by decide⟩

theorem witness_StickyFaultsClearedOnlyByReset :
    (∃ t, step { presenting 0x500#12 g1 with fltSeq := true } = .next t) ∧
    (nextInput { presenting 0x500#12 g1 with fltSeq := true }).rst = false ∧
    (∃ t, step { g1 with pins := [⟨true, false, 0#12⟩] } = .next t) ∧
    (nextInput { g1 with pins := [⟨true, false, 0#12⟩] }).rst = true := by
  exact ⟨⟨_, rfl⟩, rfl, ⟨_, rfl⟩, rfl⟩

/-- One word and state for each row of the transition table. -/
theorem witness_ControlStateTransitions :
    (∃ t, issue 0x300#12 g1 = .next t) ∧ decode 0x300#12 = .ok (.frmOpen .gas5) ∧
    (∃ t, issue 0x500#12 g1One = .next t) ∧ decode 0x500#12 = .ok .frmAbort ∧
    (∃ t, issue 0x402#12 g1One = .next t) ∧ decode 0x402#12 = .ok (.frmPush 0x02#8) ∧ g1One.fsm = .recv ∧
    g1One.idx.toNat + 1 < Config.len g1One.shape ∧
    (∃ t, issue 0x4C3#12 g1Four = .next t) ∧ decode 0x4C3#12 = .ok (.frmPush 0xC3#8) ∧ g1Four.fsm = .recv ∧
    g1Four.idx.toNat + 1 = Config.len g1Four.shape ∧
    (∃ t, issue 0x402#12 g1 = .next t) ∧ g1.fsm ≠ .recv ∧
    (∃ t, issue 0x100#12 g1 = .next t) ∧ decode 0x100#12 = .ok .crcInit ∧ g1.fsm ≠ .idle ∧
    (∃ t, issue 0x2AA#12 State.reset = .next t) ∧ decode 0x2AA#12 = .ok (.crcUpd 0xAA#8) ∧
    (∃ t, issue 0x609#12 g1 = .next t) ∧ decode 0x609#12 = .ok (Instr.rd .temp) ∧
    (∃ t, issue 0x60A#12 g1 = .next t) ∧ decode 0x60A#12 = .error .reservedRegister ∧
    ∃ t, clockEdge ⟨true, false, 0#12⟩ g1 = .next t := by
  exact ⟨⟨_, rfl⟩, rfl, ⟨_, rfl⟩, rfl, ⟨_, rfl⟩, rfl, rfl, by decide, ⟨_, rfl⟩, rfl, rfl, by decide, ⟨_, rfl⟩, by decide,
    ⟨_, rfl⟩, rfl, by decide, ⟨_, rfl⟩, rfl, ⟨_, rfl⟩, rfl, ⟨_, rfl⟩, rfl, _, rfl⟩

/-- CRC changed by each of the four ways. -/
theorem witness_OnlyTheseWriteCrc :
    (∃ t, exec (.crcUpd 0xBE#8) State.reset = .next t ∧ t.crc ≠ State.reset.crc) ∧
    (∃ t, exec (.frmOpen .ht7) g1 = .next t ∧ t.crc ≠ g1.crc) ∧ (∃ t, exec .frmAbort g1 = .next t ∧ t.crc ≠ g1.crc) ∧
    ∃ t, exec (.frmPush 0x02#8) g1One = .next t ∧ t.crc ≠ g1One.crc := by
  exact ⟨⟨_, rfl, by decide +kernel⟩, ⟨_, rfl, by decide +kernel⟩, ⟨_, rfl, by decide +kernel⟩, _, rfl,
    by decide +kernel⟩

theorem witness_OnlyPushAtIndexWritesABufferByte :
    (∃ t, exec (.frmPush 0x02#8) g1One = .next t ∧ bufByte t 1 ≠ bufByte g1One 1) ∧
    (∃ t, exec (.frmOpen .gas5) g1 = .next t ∧ bufByte t 0 ≠ bufByte g1 0) ∧
    ∃ t, exec .frmAbort h1 = .next t ∧ bufByte t 6 ≠ bufByte h1 6 := by
  exact ⟨⟨_, rfl, by decide +kernel⟩, ⟨_, rfl, by decide +kernel⟩, _, rfl, by decide +kernel⟩

theorem witness_FrameOfChecksumCommandsAndReads :
    (∃ t, exec .crcInit g1 = .next t) ∧ (∃ t, exec (.crcUpd 0x01#8) State.reset = .next t) ∧
    (∃ t, exec (Instr.rd .hum) h1 = .next t) ∧ Instr.rdHum = Instr.rd .hum := by
  exact ⟨⟨_, rfl⟩, ⟨_, rfl⟩, ⟨_, rfl⟩, rfl⟩

theorem witness_FrameOfFrameCommands :
    (∃ t, exec (.frmOpen .ht7) g1 = .next t) ∧ (∃ t, exec .frmAbort g1 = .next t) ∧
    (∃ t, exec (.frmPush 0xC3#8) g1Four = .next t) ∧ g1Four.fsm = .recv ∧ (0 : Fin 7).val ≠ g1Four.idx.toNat ∧
    (∃ t, exec (.frmPush 0xC3#8) g1 = .next t) ∧ g1.fsm ≠ .recv := by
  exact ⟨⟨_, rfl⟩, ⟨_, rfl⟩, ⟨_, rfl⟩, rfl, by decide, ⟨_, rfl⟩, by decide⟩

theorem witness_StepKeepsTheInvariant :
    StateInv (presenting 0x4C3#12 g1Four) ∧ ∃ t, step (presenting 0x4C3#12 g1Four) = .next t :=
  ⟨by decide +kernel, _, rfl⟩

theorem witness_ReachableStatesMeetTheInvariants :
    ∃ s, Sys2Proof.core.run 2 { State.reset with params := ⟨0, 1⟩, pins := [commandInput 0x300#12, commandInput 0x421#12] } =
        .next s ∧ s.fsm = .recv ∧ (∃ t, step s = .next t) ∧ (nextInput s).rst = false :=
  ⟨_, rfl, rfl, ⟨_, rfl⟩, rfl⟩

theorem witness_EveryCommandCompletes : StateInv h4Six ∧ h4Six.fsm = .recv ∧ StateInv g2 ∧ StateInv State.reset :=
  ⟨by decide +kernel, rfl, by decide +kernel, by decide +kernel⟩

/-- A command presented with the reset is dropped, a further one stays. -/
theorem witness_ResetStepGivesTheResetState :
    ({ g2 with pins := [⟨true, true, 0x600#12⟩, commandInput 0x100#12] } : State).pins =
      ⟨true, true, 0x600#12⟩ :: [commandInput 0x100#12] ∧ (⟨true, true, 0x600#12⟩ : PortIn).rst = true := by
  exact ⟨rfl, rfl⟩

end Sys2Proof.Tests.Slice0
end

section
/-! PROOFS. The sticky fault bits over an instruction, an issued word and an edge (10_state.md R28, R29), the read-out
of the two registers that are always readable (42_readout.md R142, R143), and the statements O45 and O10. -/

namespace Sys2Proof.Machine

open Sys2Proof

/-! ### The sticky fault bits -/

/-- No instruction writes FLT_ILL, since an illegal word decodes to none (10_state.md R28), and one that changes
FLT_SEQ sets it (R29). -/
theorem exec_sticky {i : Instr} {s t : State} (h : exec i s = .next t) :
    t.fltIll = s.fltIll ∧ (t.fltSeq = s.fltSeq ∨ t.fltSeq = true) := by
  rcases exec_cases i s with ⟨u, e, -, -, -, hill, hseq⟩ | ⟨e, -⟩ | ⟨r, -, e⟩ | ⟨b, -, -, -, e⟩
  · cases e.symm.trans h
    exact ⟨hill, .inl hseq⟩
  · cases e.symm.trans h
    exact ⟨rfl, .inr rfl⟩
  · obtain ⟨ok, d, e'⟩ := execRd_spec r s
    cases (e.trans e').symm.trans h
    exact ⟨rfl, .inl rfl⟩
  · cases e.symm.trans h

/-- An issued word sets FLT_ILL exactly when it is illegal (10_state.md R28). -/
theorem issue_fltIll_iff {w : CmdWord} {s t : State} (h : issue w s = .next t) :
    t.fltIll = true ↔ s.fltIll = true ∨ ∃ e, decode w = .error e := by
  cases hd : decode w with
  | ok i =>
    obtain ⟨hill, -⟩ := exec_sticky ((issue_legal hd s).symm.trans h)
    simp [hill]
  | error e =>
    cases (issue_illegal hd s).symm.trans h
    simp

theorem issue_keeps_fltSeq {w : CmdWord} {s t : State} (h : issue w s = .next t) (hs : s.fltSeq = true) :
    t.fltSeq = true := by
  cases hd : decode w with
  | ok i =>
    obtain ⟨-, hseq | hseq⟩ := exec_sticky ((issue_legal hd s).symm.trans h)
    · exact hseq.trans hs
    · exact hseq
  | error e =>
    cases (issue_illegal hd s).symm.trans h
    exact hs

theorem clockEdge_reset {p : PortIn} (hr : p.rst = true) (s : State) : clockEdge p s = .next (resetBlock s) := by
  simp [clockEdge, hr]

/-- At an edge without reset FLT_ILL is set exactly by a valid command whose word is illegal (10_state.md R28). -/
theorem clockEdge_fltIll_iff {p : PortIn} {s t : State} (hr : p.rst = false) (h : clockEdge p s = .next t) :
    t.fltIll = true ↔ s.fltIll = true ∨ (p.cmdValid = true ∧ ∃ e, decode p.cmd = .error e) := by
  rcases clockEdge_cases p s with ⟨hr', -⟩ | ⟨-, hv, e⟩ | ⟨-, hv, e⟩
  · simp [hr] at hr'
  · simpa only [hv, true_and] using issue_fltIll_iff (e.symm.trans h)
  · cases e.symm.trans h
    simp [hv]

theorem clockEdge_keeps_fltSeq {p : PortIn} {s t : State} (hr : p.rst = false) (h : clockEdge p s = .next t)
    (hs : s.fltSeq = true) : t.fltSeq = true := by
  rcases clockEdge_cases p s with ⟨hr', -⟩ | ⟨-, -, e⟩ | ⟨-, -, e⟩
  · simp [hr] at hr'
  · exact issue_keeps_fltSeq (e.symm.trans h) hs
  · cases e.symm.trans h
    exact hs

/-! ### The registers that are always readable -/

theorem exec_rdStat (s : State) : exec .rdStat s = .next (respond true (zext40 (statWord s)) s) := rfl

theorem exec_rdCrc (s : State) : exec .rdCrc s = .next (respond true (zext40 s.crc) s) := rfl

/-- Every field of STAT has the code 0 at reset (10_state.md R30, R35). -/
theorem statWord_reset : statWord State.reset = 0#10 := by decide

theorem bufByte_reset (i : Fin 7) : bufByte State.reset i = 0x00#8 := bufByte_seedFrame .idle .gas5 State.reset i

end Sys2Proof.Machine

open Sys2Proof Sys2Proof.Machine

/-- Settles O45: the edge's two sticky bits, with the input the step takes; reset is the one edge that clears them. -/
theorem stickyFaultsClearedOnlyByReset : Obligations.StickyFaultsClearedOnlyByReset := by
  intro s t h
  have hedge : clockEdge (nextInput s) (takeInput s) = .next t := h
  refine ⟨fun hr => ⟨?_, ?_⟩, fun hr => ?_⟩
  · simpa only [takeInput_fltIll] using clockEdge_fltIll_iff hr hedge
  · exact clockEdge_keeps_fltSeq (s := takeInput s) hr hedge
  · cases (clockEdge_reset hr (takeInput s)).symm.trans hedge
    exact ⟨rfl, rfl⟩

/-- Settles O10: the fields by the table of R35; the two responses by the read-out of STAT and CRC, whose values at
reset are 0 and the seed. -/
theorem resetValuesAsTheSpecGivesThem : Obligations.ResetValuesAsTheSpecGivesThem := by
  refine ⟨rfl, rfl, rfl, rfl, bufByte_reset, rfl, rfl, rfl, ?_, ?_⟩
  · rw [exec_rdStat, statWord_reset]
    rfl
  · rw [exec_rdCrc]
    rfl

end

section
/-! PROOFS. The fields of a word as numbers, the decoder on encoded instructions (30_encoding.md R73, R74), the
illegal words listed (R78), and the statements O3 and O6. -/

namespace Sys2Proof

/-! ### The fields as numbers (30_encoding.md R70) -/

theorem mkWord_toNat (o : BitVec 4) (a : Byte) : (mkWord o a).toNat = o.toNat * 256 + a.toNat := by
  have happend : (mkWord o a).toNat = o.toNat <<< 8 ||| a.toNat := BitVec.toNat_append o a
  rw [happend, ← Nat.shiftLeft_add_eq_or_of_lt a.isLt, Nat.shiftLeft_eq]

theorem mkWord_opcOf_argOf (w : CmdWord) : mkWord (opcOf w) (argOf w) = w := opcOf_append_argOf w

theorem opcOf_toNat (w : CmdWord) : (opcOf w).toNat = w.toNat / 256 := by
  have hw := mkWord_toNat (opcOf w) (argOf w)
  rw [mkWord_opcOf_argOf] at hw
  have ha := (argOf w).isLt
  omega

theorem argOf_toNat (w : CmdWord) : (argOf w).toNat = w.toNat % 256 := by
  have hw := mkWord_toNat (opcOf w) (argOf w)
  rw [mkWord_opcOf_argOf] at hw
  have ha := (argOf w).isLt
  omega

/-- A word whose two numbers are those of two fields is the word of these fields. -/
theorem eq_mkWord {w : CmdWord} {o : BitVec 4} {a : Byte} (ho : w.toNat / 256 = o.toNat)
    (ha : w.toNat % 256 = a.toNat) : w = mkWord o a := by
  apply BitVec.eq_of_toNat_eq
  rw [mkWord_toNat]
  omega

/-! ### Decoding an encoded instruction -/

theorem decode_encode (i : Instr) : decode (encode i) = .ok i := by
  cases i with
  | crcInit | frmAbort => rfl
  | crcUpd b | frmPush b => simp [encode, mkWord, decode]
  | frmOpen sh => cases sh <;> rfl
  | rdStat | rdCrc | rdCrcExp | rdCrcAct | rdRaw32 | rdRes | rdTvoc | rdSflags | rdHum | rdTemp => rfl

/-- A word with the two numbers of an instruction's encoding decodes to that instruction. -/
theorem decode_of_fields {w : CmdWord} {i : Instr} {o : BitVec 4} {a : Byte} (hi : encode i = mkWord o a)
    (h : w.toNat / 256 = o.toNat ∧ w.toNat % 256 = a.toNat) : decode w = .ok i := by
  rw [eq_mkWord h.1 h.2, ← hi]
  exact decode_encode i

/-! ### The illegal words (30_encoding.md R78) -/

theorem encodeShape_toNat_lt (sh : Shape) : (encodeShape sh).toNat < 2 := by cases sh <;> decide

theorem encodeReg_toNat_lt (r : Reg) : (encodeReg r).toNat < 10 := by cases r <;> decide

/-- The cases of R78, over the two fields of a word as numbers. -/
def IllegalFields (opc arg : Nat) : Prop :=
  opc = 0 ∨ 7 ≤ opc ∨ ((opc = 1 ∨ opc = 5) ∧ arg ≠ 0) ∨ (opc = 3 ∧ 2 ≤ arg) ∨ (opc = 6 ∧ 0x0A ≤ arg)

theorem not_error_of_ok {w : CmdWord} {i : Instr} (h : decode w = .ok i) : ¬∃ e, decode w = .error e := by
  rintro ⟨e, he⟩
  cases h.symm.trans he

theorem decode_error_iff (w : CmdWord) :
    (∃ e, decode w = .error e) ↔ IllegalFields (opcOf w).toNat (argOf w).toNat := by
  induction w using forall_word with | h o a => ?_
  rw [opcOf_append, argOf_append, IllegalFields]
  rcases decode_cases o a with ⟨ho, e⟩ | ⟨rfl, ha, e⟩ | ⟨rfl, ha, e⟩ | ⟨rfl, ha, e⟩ | ⟨rfl, ha, e⟩ | ⟨rfl, rfl, e⟩ |
    ⟨rfl, rfl, e⟩ | ⟨rfl, e⟩ | ⟨rfl, e⟩ | ⟨rfl, sh, rfl, e⟩ | ⟨rfl, r, rfl, e⟩
  case inl => exact iff_of_true ⟨_, e⟩ (ho.elim .inl (.inr ∘ .inl))
  -- the four reserved operands
  iterate 4
    exact iff_of_true ⟨_, e⟩ (by simpa [← BitVec.toNat_inj] using ha)
  -- the six legal forms
  iterate 4
    exact iff_of_false (not_error_of_ok e) (by simp)
  · have hsh := encodeShape_toNat_lt sh
    exact iff_of_false (not_error_of_ok e) (by simpa using hsh)
  · have hr := encodeReg_toNat_lt r
    exact iff_of_false (not_error_of_ok e) (by simpa using hr)

end Sys2Proof

open Sys2Proof Sys2Proof.Machine

/-- Settles O3: a word that meets a branch is the encoding of the instruction the branch names, and a word that meets
none has the fields of an illegal word. -/
theorem decoderFollowsThePseudocode : Obligations.DecoderFollowsThePseudocode := by
  intro w opc arg
  have harg : arg = (BitVec.ofNat 8 arg).toNat := by
    rw [BitVec.toNat_ofNat]
    exact (Nat.mod_mod _ _).symm
  refine ⟨fun h => decode_of_fields rfl h, fun ho => decode_of_fields rfl ⟨ho, harg⟩, fun h => decode_of_fields rfl h,
    fun h => decode_of_fields rfl h, fun ho => decode_of_fields rfl ⟨ho, harg⟩, fun h => decode_of_fields rfl h,
    ?_, ?_, ?_, ?_, ?_, ?_, ?_, ?_, ?_, ?_, ?illegal⟩
  case illegal =>
    intro hinit hupd hopen hpush habort hrd
    rw [decode_error_iff, opcOf_toNat, argOf_toNat]
    show IllegalFields opc arg
    unfold IllegalFields
    omega
  -- the ten registers
  all_goals exact fun h => decode_of_fields rfl h

/-- Settles O6: the list of R78 by the decoder's cases, and an issued illegal word by `refuseIll`. -/
theorem illegalWordsAreRefused : Obligations.IllegalWordsAreRefused :=
  ⟨decode_error_iff, ⟨.reservedOpcode, rfl⟩, ⟨.reservedOpcode, rfl⟩, fun _ _ s h => issue_illegal h s⟩

end

section
/-! PROOFS. What `crc.init` does in each control state (40_checksum.md R94), and the statement O13. -/

namespace Sys2Proof.Machine

open Sys2Proof

theorem exec_crcInit_of_idle {s : State} (h : s.fsm = .idle) : exec .crcInit s = complete (setCrc Config.seed s) :=
  if_neg (not_not_intro h)

theorem exec_crcInit_of_not_idle {s : State} (h : s.fsm ≠ .idle) : exec .crcInit s = refuseSeq s := if_pos h

/-- At reset CRC already holds the seed (10_state.md R35). -/
theorem setCrc_seed_reset : setCrc Config.seed State.reset = State.reset := rfl

end Sys2Proof.Machine

open Sys2Proof Sys2Proof.Machine

/-- Settles O13: 0x100 is the encoding of `crc.init`, which seeds CRC in IDLE and is refused SEQ elsewhere; the reset
state is in IDLE and seeded. -/
theorem crcInitSeedsInIdleElseRefused : Obligations.CrcInitSeedsInIdleElseRefused := by
  refine ⟨decode_encode .crcInit, fun _ h => exec_crcInit_of_idle h, fun _ h => exec_crcInit_of_not_idle h, ?_⟩
  have hidle : State.reset.fsm = .idle := rfl
  rw [exec_crcInit_of_idle hidle, setCrc_seed_reset]
  rfl

end

section
/-! PROOFS. The frame commands, each in the control states that give it a meaning (41_frame.md R110, R112, R116, R118),
the verdict branch by branch (R114), and the statements O22, O23, O25 and O26. -/

namespace Sys2Proof

/-- An operand byte laid over a word whose `arg` is zero fills that field (30_encoding.md R70). -/
theorem mkWord_zero_or (o : BitVec 4) (a : Byte) : mkWord o 0x00#8 ||| a.setWidth 12 = mkWord o a := by
  have hlow : a.setWidth 12 = mkWord 0x0#4 a := (BitVec.setWidth_eq_append (by decide)).trans rfl
  calc mkWord o 0x00#8 ||| a.setWidth 12
    _ = (o ++ 0x00#8) ||| (0x0#4 ++ a) := by rw [hlow]; rfl
    _ = (o ||| 0x0#4) ++ (0x00#8 ||| a) := BitVec.or_append
    _ = mkWord o a := by simp [mkWord]

end Sys2Proof

namespace Sys2Proof.Machine

open Sys2Proof

/-! ### Opening and aborting a frame -/

theorem exec_frmOpen (sh : Shape) (s : State) : exec (.frmOpen sh) s = complete (seedFrame .recv sh s) := rfl

theorem exec_frmAbort (s : State) : exec .frmAbort s = complete (seedFrame .idle .gas5 s) := rfl

/-- The frame machinery seeded for IDLE is as reset leaves it (10_state.md R35). -/
theorem seedFrame_idle_eq_reset (s : State) :
    seedFrame .idle .gas5 s = { State.reset with fltIll := s.fltIll, fltSeq := s.fltSeq, rsp := s.rsp,
                                                 params := s.params, pins := s.pins } := rfl

/-! ### The verdict -/

theorem verdict_of_crc_ne {s : State} (h : s.crc ≠ bufByte s (checksumIndex s.shape)) : verdict s = .checksum :=
  if_pos h

theorem verdict_of_crc_eq {s : State} (h : s.crc = bufByte s (checksumIndex s.shape)) :
    verdict s = if s.shape = .ht7 ∧ bufByte s 0 &&& calMask s.params = 0x00#8 then .uncal else .none :=
  if_neg (not_not_intro h)

theorem verdict_gas5 {s : State} (hs : s.shape = .gas5) :
    verdict s = if s.crc = bufByte s 4 then .none else .checksum := by
  have hi : checksumIndex s.shape = 4 := congrArg checksumIndex hs
  by_cases hc : s.crc = bufByte s 4
  · rw [verdict_of_crc_eq (hi ▸ hc)]
    simp [hs, hc]
  · rw [verdict_of_crc_ne (hi ▸ hc), if_neg hc]

/-- The calibration mask reads the bit that its parameter names (00_scope.md R10). -/
theorem and_calMask_eq_zero_iff (b : Byte) (p : Config.Params) :
    b &&& calMask p = 0x00#8 ↔ b.getLsbD p.calBit.val = false :=
  and_oneHot_eq_zero b p.calBit

/-- An HT7 frame with the right checksum is judged by its calibration bit. -/
theorem verdict_ht7_of_crc_eq {s : State} (hs : s.shape = .ht7) (hc : s.crc = bufByte s 6) :
    verdict s = if (bufByte s 0).getLsbD s.params.calBit.val = false then .uncal else .none := by
  have hi : checksumIndex s.shape = 6 := congrArg checksumIndex hs
  rw [verdict_of_crc_eq (hi ▸ hc)]
  simp only [hs, true_and, and_calMask_eq_zero_iff]

/-! ### Pushing a byte -/

theorem exec_frmPush_of_not_recv {b : Byte} {s : State} (h : s.fsm ≠ .recv) : exec (.frmPush b) s = refuseSeq s :=
  if_pos h

theorem exec_frmPush_of_recv {b : Byte} {s : State} (hf : s.fsm = .recv) (hi : s.idx.toNat < 7) :
    exec (.frmPush b) s = complete (pushByte ⟨s.idx.toNat, hi⟩ b s) :=
  (if_neg (not_not_intro hf)).trans (dif_pos hi)

/-- The last byte of a frame is stored in the place of the checksum byte (20_memory.md R52, R54). -/
theorem idx_eq_checksumIndex {s : State} (h : s.idx.toNat < 7) (hl : s.idx.toNat + 1 = Config.len s.shape) :
    (⟨s.idx.toNat, h⟩ : Fin 7) = checksumIndex s.shape := by
  have hlen : Config.len s.shape = (checksumIndex s.shape).val + 1 := by cases s.shape <;> rfl
  exact Fin.ext (Nat.succ.inj (hl.trans hlen))

theorem checksumIndex_ne_zero (sh : Shape) : checksumIndex sh ≠ 0 := by cases sh <;> decide

/-- The verdict on a frame whose checksum byte has just been stored: it compares CRC with that byte, and the status
byte is another one. -/
theorem verdict_storeByte_checksumIndex (b : Byte) (s : State) :
    verdict (storeByte (checksumIndex s.shape) b s) =
      if s.crc ≠ b then .checksum
      else if s.shape = .ht7 ∧ bufByte s 0 &&& calMask s.params = 0x00#8 then .uncal else .none := by
  simp only [verdict, storeByte_crc, storeByte_shape, storeByte_params, bufByte_storeByte_self,
    bufByte_storeByte_of_ne (checksumIndex_ne_zero s.shape)]

theorem verdict_advanceIdx (s : State) : verdict (advanceIdx s) = verdict s := rfl

end Sys2Proof.Machine

open Sys2Proof Sys2Proof.Machine

/-- Settles O22: the two words are the encodings of `frm.open`, which seeds the frame machinery and answers. -/
theorem frmOpenStartsAFrame : Obligations.FrmOpenStartsAFrame := by
  refine ⟨decode_encode (.frmOpen .gas5), decode_encode (.frmOpen .ht7), fun sh s => ?_⟩
  rw [exec_frmOpen]
  rfl

/-- Settles O26: 0x500 is the encoding of `frm.abort`, which seeds the frame machinery as reset does. -/
theorem frmAbortGivesResetStateButFaults : Obligations.FrmAbortGivesResetStateButFaults := by
  refine ⟨decode_encode .frmAbort, fun s => ?_⟩
  rw [exec_frmAbort, seedFrame_idle_eq_reset]
  rfl

/-- Settles O25: one equation of the verdict per branch of R114. -/
theorem verdictChecksumBeforeCalibration : Obligations.VerdictChecksumBeforeCalibration := by
  refine fun s => ⟨verdict_gas5, fun hs hc => ?_, fun hs hc hcal => ?_, fun hs hc hcal => ?_⟩
  · have hi : checksumIndex s.shape = 6 := congrArg checksumIndex hs
    exact verdict_of_crc_ne (hi ▸ hc)
  · rw [verdict_ht7_of_crc_eq hs hc, if_pos hcal]
  · rw [verdict_ht7_of_crc_eq hs hc, hcal]
    rfl

/-- Settles O23: a push outside RECV is refused, one of a data byte stores, folds and counts, and the last one judges
the frame with its checksum byte stored. -/
theorem frmPushStoresFoldsAndLatches : Obligations.FrmPushStoresFoldsAndLatches := by
  refine ⟨fun b => ?_, fun b s => ⟨fun hf => exec_frmPush_of_not_recv hf, fun h hf hl => ?_, fun h hf hl => ?_⟩⟩
  · exact (congrArg decode (mkWord_zero_or 0x4#4 b)).trans (decode_encode (.frmPush b))
  · rw [exec_frmPush_of_recv hf h, pushByte_data h hl]
    rfl
  · have hv := verdict_storeByte_checksumIndex b s
    rw [← idx_eq_checksumIndex h hl, ← verdict_advanceIdx] at hv
    rw [exec_frmPush_of_recv hf h, pushByte_last h hl, latchVerdict, hv]
    rfl

end

section
/-! PROOFS. Read-out (42_readout.md): an `rd` by the gate of its register (R141, R150), what a word that is no `rd`
answers (R140), the values of the frame fields as numbers (R144 to R149), and the statements O33, O34, O35, O37, O38
and O40. -/

namespace Sys2Proof

/-- The word of an `rd` is its opcode and its register number (30_encoding.md R73). -/
theorem encode_rd (r : Reg) : encode (Instr.rd r) = mkWord 0x6#4 (encodeReg r) := by cases r <;> rfl

theorem rd_injective : Function.Injective Instr.rd := fun r q h =>
  Option.some.inj ((reads_rd r).symm.trans ((congrArg Instr.reads h).trans (reads_rd q)))

theorem ne_rd_of_reads_none {i : Instr} (hn : i.reads = none) (r : Reg) : i ≠ Instr.rd r := by
  rintro rfl
  cases (reads_rd r).symm.trans hn

/-- The reserved register numbers (30_encoding.md R78). -/
theorem decode_mkWord_reservedRegister {a : Byte} (h : 0x0A ≤ a.toNat) :
    ∃ e, decode (mkWord 0x6#4 a) = .error e := by
  rw [decode_error_iff, mkWord, opcOf_append, argOf_append]
  iterate 4 right
  exact ⟨rfl, h⟩

end Sys2Proof

namespace Sys2Proof.Machine

open Sys2Proof

/-! ### An `rd` by the gate of its register -/

theorem readReg_ne_none_iff {r : Reg} {s : State} : readReg r s ≠ none ↔ gateOpen (gateOf r) s = true := by
  rw [ne_eq, readReg_eq_none, Bool.not_eq_false]

theorem exec_rd_of_some {r : Reg} {s : State} {v : Data} (h : readReg r s = some v) :
    exec (Instr.rd r) s = .next (respond true v s) := by
  rw [exec_rd, execRd, h]

theorem exec_rd_of_none {r : Reg} {s : State} (h : readReg r s = none) :
    exec (Instr.rd r) s = .next (respond false 0#40 s) := by
  rw [exec_rd, execRd, h]

theorem exec_rd_open {r : Reg} {s : State} (h : gateOpen (gateOf r) s = true) :
    exec (Instr.rd r) s = .next (respond true (regValue r s) s) :=
  exec_rd_of_some (readReg_eq_some.mpr ⟨h, rfl⟩)

theorem exec_rd_closed {r : Reg} {s : State} (h : gateOpen (gateOf r) s ≠ true) :
    exec (Instr.rd r) s = .next (respond false 0#40 s) :=
  exec_rd_of_none (readReg_eq_none.mpr (Bool.eq_false_of_not_eq_true h))

/-- The answer to an `rd` is {1, value}, or {0, 0} where the register has no value (42_readout.md R140). -/
theorem exec_rd_answer {r : Reg} {s t : State} (h : exec (Instr.rd r) s = .next t) :
    ∃ a, t.rsp = some a ∧ (∀ v, readReg r s = some v → a = ⟨true, v⟩) ∧ (readReg r s = none → a = ⟨false, 0#40⟩) := by
  cases hv : readReg r s with
  | none =>
    cases (exec_rd_of_none hv).symm.trans h
    exact ⟨_, rfl, nofun, fun _ => rfl⟩
  | some v =>
    cases (exec_rd_of_some hv).symm.trans h
    exact ⟨_, rfl, fun _ hu => congrArg _ (Option.some.inj hu), nofun⟩

/-! ### Reads one after another -/

/-- No register shows the response port. -/
theorem readReg_of_rsp (r : Reg) (a : Option Response) (s : State) : readReg r { s with rsp := a } = readReg r s := by
  cases r <;> rfl

/-- The response to an `rd` does not depend on the response before it. -/
theorem exec_rd_of_rsp (r : Reg) (a : Option Response) (s : State) :
    exec (Instr.rd r) { s with rsp := a } = exec (Instr.rd r) s := by
  rw [exec_rd, exec_rd, execRd, execRd, readReg_of_rsp]
  rfl

theorem execAll_map_rd (rs : List Reg) (s : State) :
    ∃ a, execAll (rs.map Instr.rd) s = .next { s with rsp := a } := by
  induction rs generalizing s with
  | nil => exact ⟨s.rsp, rfl⟩
  | cons r rs ih =>
    obtain ⟨ok, d, hr⟩ := execRd_spec r s
    obtain ⟨a, hrs⟩ := ih (respond ok d s)
    exact ⟨a, by rw [List.map_cons, execAll_cons, exec_rd, hr, andThen_next, hrs]; rfl⟩

theorem execAll_singleton (i : Instr) (s : State) : execAll [i] s = exec i s := by
  rw [execAll_cons]
  cases exec i s <;> rfl

/-! ### The words that are no `rd` -/

/-- The instructions refused SEQ (60_exceptions.md R185). -/
def SeqRefused (i : Instr) (s : State) : Prop :=
  (i = .crcInit ∨ ∃ b, i = .crcUpd b) ∧ s.fsm ≠ .idle ∨ (∃ b, i = .frmPush b) ∧ s.fsm ≠ .recv

/-- An instruction that is no `rd` is executed, answering {1, 0} with the fault bits as before, or refused SEQ. -/
theorem exec_of_reads_none {i : Instr} {s t : State} (hn : i.reads = none) (h : exec i s = .next t) :
    (t.rsp = some ⟨true, 0#40⟩ ∧ t.fltIll = s.fltIll ∧ t.fltSeq = s.fltSeq) ∨
    (SeqRefused i s ∧ t = respond false 0#40 (setFltSeq s)) := by
  rcases exec_next_cases h with ⟨-, -, rfl⟩ | ⟨b, -, -, rfl⟩ | ⟨hi, hf, ht⟩ | ⟨sh, -, rfl⟩ | ⟨-, rfl⟩ |
    ⟨b, hi, hf, ht⟩ | ⟨b, hidx, -, -, rfl⟩ | ⟨r, -, -, rfl, -⟩
  · exact .inl ⟨rfl, rfl, rfl⟩
  · exact .inl ⟨rfl, rfl, rfl⟩
  · exact .inr ⟨.inl ⟨hi, hf⟩, ht⟩
  · exact .inl ⟨rfl, rfl, rfl⟩
  · exact .inl ⟨rfl, rfl, rfl⟩
  · exact .inr ⟨.inr ⟨⟨b, hi⟩, hf⟩, ht⟩
  · obtain ⟨-, hill, hseq, -⟩ := pushByte_fields ⟨s.idx.toNat, hidx⟩ b s
    exact .inl ⟨rfl, hill, hseq⟩
  · exact absurd rfl (ne_rd_of_reads_none hn r)

/-! ### The frame fields as numbers -/

theorem memRead_zero_four (s : State) :
    memRead s 0 4 = (bufByte s 0).toNat * 2 ^ 24 + (bufByte s 1).toNat * 2 ^ 16 + (bufByte s 2).toNat * 2 ^ 8 +
      (bufByte s 3).toNat := by
  rw [memRead, buf_toList]
  simp only [List.drop_zero, List.take_succ_cons, List.take_zero, List.foldl_cons, List.foldl_nil]
  omega

theorem memRead_one_three (s : State) :
    memRead s 1 3 = (bufByte s 1).toNat * 2 ^ 16 + (bufByte s 2).toNat * 2 ^ 8 + (bufByte s 3).toNat := by
  rw [memRead, buf_toList]
  simp only [List.drop_succ_cons, List.drop_zero, List.take_succ_cons, List.take_zero, List.foldl_cons, List.foldl_nil]
  omega

theorem memRead_three_three (s : State) :
    memRead s 3 3 = (bufByte s 3).toNat * 2 ^ 16 + (bufByte s 4).toNat * 2 ^ 8 + (bufByte s 5).toNat := by
  rw [memRead, buf_toList]
  simp only [List.drop_succ_cons, List.drop_zero, List.take_succ_cons, List.take_zero, List.foldl_cons, List.foldl_nil]
  omega

/-- The big-endian word of bytes 0 to 3 (20_memory.md R52). -/
theorem raw32_toNat_eq_memRead (s : State) : (raw32 s).toNat = memRead s 0 4 :=
  (raw32_toNat s).trans (memRead_zero_four s).symm

/-- The low 24 bits of that word are bytes 1 to 3 (42_readout.md R146). -/
theorem tvoc_toNat_eq_memRead (s : State) : (tvoc s).toNat = memRead s 1 3 := by
  have h1 := (bufByte s 1).isLt
  have h2 := (bufByte s 2).isLt
  have h3 := (bufByte s 3).isLt
  rw [tvoc_toNat, raw32_toNat, memRead_one_three]
  omega

/-- The temperature is the low 20 bits of bytes 3 to 5 (42_readout.md R149). -/
theorem temperature_toNat_eq_memRead (s : State) : (temperature s).toNat = memRead s 3 3 % 2 ^ 20 := by
  have h4 := (bufByte s 4).isLt
  have h5 := (bufByte s 5).isLt
  rw [temperature_toNat, memRead_three_three]
  omega

/-- The humidity by the shifts of 42_readout.md R148. -/
theorem humidity_toNat_eq_shifts (s : State) :
    (humidity s).toNat =
      (bufByte s 1).toNat <<< 12 ||| (bufByte s 2).toNat <<< 4 ||| (bufByte s 3).toNat >>> 4 := by
  rw [humidity, BitVec.toNat_append, BitVec.toNat_append, Nat.shiftLeft_or_distrib, ← Nat.shiftLeft_add,
    highNibble_toNat, Nat.shiftRight_eq_div_pow]

/-- The temperature by the shifts of 42_readout.md R149. -/
theorem temperature_toNat_eq_shifts (s : State) :
    (temperature s).toNat =
      ((bufByte s 3).toNat &&& 0x0F) <<< 16 ||| (bufByte s 4).toNat <<< 8 ||| (bufByte s 5).toNat := by
  have hmask : (bufByte s 3).toNat &&& 0x0F = (bufByte s 3).toNat % 16 := Nat.and_two_pow_sub_one_eq_mod _ 4
  rw [temperature, BitVec.toNat_append, BitVec.toNat_append, Nat.shiftLeft_or_distrib, ← Nat.shiftLeft_add,
    lowNibble_toNat, hmask]

end Sys2Proof.Machine

open Sys2Proof Sys2Proof.Machine

/-- Settles O34: an illegal word is refused ILL, a legal one that is no `rd` is executed or refused SEQ, and an `rd`
answers by the gate of its register. -/
theorem everyWordIsAnswered : Obligations.EveryWordIsAnswered := by
  intro w s t h
  cases hd : decode w with
  | error e =>
    cases (issue_illegal hd s).symm.trans h
    exact ⟨_, rfl, fun _ => ⟨rfl, nofun, iff_of_true rfl (.inl ⟨rfl, e, rfl⟩)⟩, nofun⟩
  | ok i =>
    have hexec : exec i s = .next t := (issue_legal hd s).symm.trans h
    rcases reads_cases i with hn | ⟨r, -, rfl⟩
    · have hrd (r : Reg) : (Except.ok i : Except Illegal Instr) ≠ .ok (Instr.rd r) :=
        fun hr => ne_rd_of_reads_none hn r (Except.ok.inj hr)
      rcases exec_of_reads_none hn hexec with ⟨hrsp, hill, hseq⟩ | ⟨hrefused, rfl⟩
      · refine ⟨_, hrsp, fun _ => ⟨rfl, fun _ => ⟨hill, hseq⟩, iff_of_false nofun ?_⟩, fun r hr => absurd hr (hrd r)⟩
        rintro (⟨rfl, -⟩ | ⟨rfl, -⟩) <;> cases hrsp
      · exact ⟨_, rfl, fun _ => ⟨rfl, nofun, iff_of_true rfl (.inr ⟨rfl, i, rfl, hrefused⟩)⟩,
          fun r hr => absurd hr (hrd r)⟩
    · obtain ⟨a, ht, hsome, hnone⟩ := exec_rd_answer hexec
      refine ⟨a, ht, fun hrd => absurd rfl (hrd r), fun q hq => ?_⟩
      cases rd_injective (Except.ok.inj hq)
      exact ⟨hsome, hnone⟩

/-- Settles O35: STAT as the sum of its fields, each by its code; CRC as it stands. -/
theorem statAndCrcAlwaysReadable : Obligations.StatAndCrcAlwaysReadable := by
  intro s
  refine ⟨?_, ?_⟩
  · rw [exec_rdStat, zext40_eq_ofNat, statWord_toNat, fsmCode_toNat, shapeCode_toNat, errCode_toNat]
    rfl
  · rw [exec_rdCrc, zext40_eq_ofNat]
    rfl

/-- Settles O37: the three registers have the gate ACC(GAS5); open, each answers its value as a number. -/
theorem gasFieldsOfAcceptedFrame : Obligations.GasFieldsOfAcceptedFrame := by
  intro s raw
  have hraw : (raw32 s).toNat = raw := raw32_toNat s
  have hlt : raw < 2 ^ 32 := hraw ▸ (raw32 s).isLt
  refine ⟨fun hacc => ?_, fun hacc => ?_⟩
  · have hopen : gateOpen (.acc .gas5) s = true := gateOpen_acc.mpr hacc
    refine ⟨?_, ?_, ?_, hlt, by omega, hraw.symm.trans (raw32_toNat_eq_memRead s), ?_⟩
    · rw [← hraw, ← zext40_eq_ofNat]
      exact exec_rd_open (r := .raw32) hopen
    · rw [← hraw, ← resistance_toNat, ← zext40_eq_ofNat]
      exact exec_rd_open (r := .res) hopen
    · rw [← hraw, ← tvoc_toNat, ← zext40_eq_ofNat]
      exact exec_rd_open (r := .tvoc) hopen
    · rw [← hraw, ← tvoc_toNat, tvoc_toNat_eq_memRead]
  · have hclosed : gateOpen (.acc .gas5) s ≠ true := mt gateOpen_acc.mp hacc
    exact ⟨exec_rd_closed (r := .raw32) hclosed, exec_rd_closed (r := .res) hclosed,
      exec_rd_closed (r := .tvoc) hclosed⟩

/-- Settles O38: the three registers have the gate ACC(HT7); open, each answers its value as a number. -/
theorem humidityTemperatureFieldsOfAcceptedFrame : Obligations.HumidityTemperatureFieldsOfAcceptedFrame := by
  refine fun s => ⟨fun hacc => ?_, fun hacc => ?_⟩
  · have hopen : gateOpen (.acc .ht7) s = true := gateOpen_acc.mpr hacc
    have htemp : exec .rdTemp s = .next (respond true (BitVec.ofNat 40 (temperature s).toNat) s) :=
      zext40_eq_ofNat (temperature s) ▸ exec_rd_open (r := .temp) hopen
    refine ⟨?_, ?_, ?_, ?_⟩
    · rw [← zext40_eq_ofNat]
      exact exec_rd_open (r := .sflags) hopen
    · rw [← humidity_toNat_eq_shifts, ← zext40_eq_ofNat]
      exact exec_rd_open (r := .hum) hopen
    · rw [← temperature_toNat_eq_shifts]
      exact htemp
    · rw [← temperature_toNat_eq_memRead]
      exact htemp
  · have hclosed : gateOpen (.acc .ht7) s ≠ true := mt gateOpen_acc.mp hacc
    exact ⟨exec_rd_closed (r := .sflags) hclosed, exec_rd_closed (r := .hum) hclosed,
      exec_rd_closed (r := .temp) hclosed⟩

/-- Settles O40: the word of an `rd` decodes, a reserved register number is illegal, and a list of reads leaves all but
the response, which no register shows. -/
theorem readsHaveNoSideEffect : Obligations.ReadsHaveNoSideEffect := by
  refine ⟨fun r => ?_, fun r s => ⟨fun v hv => exec_rd_of_some hv, fun hv => exec_rd_of_none hv⟩, fun a s ha => ?_,
    fun rs r s => ⟨execAll_map_rd rs s, ?_⟩⟩
  · calc decode (mkWord 0x6#4 0x00#8 ||| (encodeReg r).setWidth 12)
      _ = decode (encode (Instr.rd r)) := by rw [mkWord_zero_or, encode_rd]
      _ = .ok (Instr.rd r) := decode_encode (Instr.rd r)
  · obtain ⟨e, he⟩ := decode_mkWord_reservedRegister ha
    exact issue_illegal ((congrArg decode (mkWord_zero_or 0x6#4 a)).trans he) s
  · obtain ⟨a, hrs⟩ := execAll_map_rd rs s
    rw [execAll_append, hrs, andThen_next, execAll_singleton, exec_rd_of_rsp]

/-- Settles O33: each register's gate, and when that gate is open. -/
theorem gatesExactlyAsListed : Obligations.GatesExactlyAsListed := by
  have halways : ∀ r ∈ [Reg.stat, .crc], gateOf r = .always := by decide
  have hdone : ∀ r ∈ [Reg.crcExp, .crcAct], gateOf r = .done := by decide
  have hgas : ∀ r ∈ [Reg.raw32, .res, .tvoc], gateOf r = .acc .gas5 := by decide
  have hht : ∀ r ∈ [Reg.sflags, .hum, .temp], gateOf r = .acc .ht7 := by decide
  refine fun s => ⟨fun r hr => ?_, fun r hr => ?_, fun r hr => ?_, fun r hr => ?_⟩ <;> rw [readReg_ne_none_iff]
  · rw [halways r hr, gateOpen_always]
  · rw [hdone r hr, gateOpen_done]
  · rw [hgas r hr, gateOpen_acc]
  · rw [hht r hr, gateOpen_acc]

end

section
/-! PROOFS. What the raw values mean to the consumer (42_readout.md R158, R159), and the statements O55 and O56. -/

namespace Sys2Proof.Machine

/-- The largest raw value is 0xFFFFF. -/
theorem toNat_cast_le (v : BitVec 20) : (v.toNat : Rat) ≤ 1048575 := by
  have h : v.toNat ≤ 1048575 := Nat.le_of_lt_succ v.isLt
  exact_mod_cast h

theorem relativeHumidity_nonneg (h : BitVec 20) : 0 ≤ relativeHumidity h := by
  unfold relativeHumidity
  positivity

theorem relativeHumidity_lt (h : BitVec 20) : relativeHumidity h < 100 := by
  have := toNat_cast_le h
  unfold relativeHumidity
  linarith

theorem le_celsius (v : BitVec 20) : -50 ≤ celsius v := by
  have : (0 : Rat) ≤ v.toNat := Nat.cast_nonneg _
  unfold celsius
  linarith

theorem celsius_le (v : BitVec 20) : celsius v ≤ 200 * 1048575 / 1048576 - 50 := by
  have := toNat_cast_le v
  unfold celsius
  linarith

theorem celsius_eq_zero_iff (v : BitVec 20) : celsius v = 0 ↔ v = 0x40000#20 := by
  have hcast : celsius v = 0 ↔ (v.toNat : Rat) = (262144 : Nat) := by
    unfold celsius
    constructor <;> intro h <;> push_cast at * <;> linarith
  rw [hcast, Nat.cast_inj, ← BitVec.toNat_inj]
  rfl

end Sys2Proof.Machine

open Sys2Proof.Machine

/-- Settles O55: the bounds by the range of the raw value, the three values by computing. -/
theorem relativeHumidityRange : Obligations.RelativeHumidityRange := by
  refine ⟨fun h => ⟨?_, relativeHumidity_nonneg h, relativeHumidity_lt h⟩, ?_, ?_, ?_⟩ <;>
    norm_num [relativeHumidity]

/-- Settles O56: the bounds and the zero by the range of the raw value, the three values by computing. -/
theorem celsiusRange : Obligations.CelsiusRange := by
  refine ⟨fun v => ⟨?_, le_celsius v, celsius_le v, celsius_eq_zero_iff v⟩, ?_, ?_, ?_⟩ <;> norm_num [celsius]

end

section
/-! PROOFS. The refusals SEQ (60_exceptions.md R185): an instruction on the list is refused, every other one leaves
FLT_SEQ, and the statement O44. -/

namespace Sys2Proof.Machine

open Sys2Proof

theorem fsm_ne_idle_iff (f : Fsm) : f ≠ .idle ↔ f = .recv ∨ f = .done := by cases f <;> decide

theorem fsm_ne_recv_iff (f : Fsm) : f ≠ .recv ↔ f = .idle ∨ f = .done := by cases f <;> decide

/-- The list of R185 with its control states named one by one. -/
theorem seqRefused_iff (i : Instr) (s : State) :
    SeqRefused i s ↔ ((i = .crcInit ∨ ∃ b, i = .crcUpd b) ∧ (s.fsm = .recv ∨ s.fsm = .done)) ∨
      ((∃ b, i = .frmPush b) ∧ (s.fsm = .idle ∨ s.fsm = .done)) := by
  rw [SeqRefused, fsm_ne_idle_iff, fsm_ne_recv_iff]

theorem exec_crcUpd_of_not_idle {b : Byte} {s : State} (h : s.fsm ≠ .idle) : exec (.crcUpd b) s = refuseSeq s :=
  if_pos h

theorem exec_of_seqRefused {i : Instr} {s : State} (h : SeqRefused i s) : exec i s = refuseSeq s := by
  rcases h with ⟨rfl | ⟨b, rfl⟩, hf⟩ | ⟨⟨b, rfl⟩, hf⟩
  · exact exec_crcInit_of_not_idle hf
  · exact exec_crcUpd_of_not_idle hf
  · exact exec_frmPush_of_not_recv hf

/-- An instruction that is not on the list leaves FLT_SEQ: an `rd` writes the response alone, and any other is
executed. -/
theorem exec_keeps_fltSeq {i : Instr} {s t : State} (hn : ¬SeqRefused i s) (h : exec i s = .next t) :
    t.fltSeq = s.fltSeq := by
  rcases reads_cases i with hr | ⟨r, -, rfl⟩
  · rcases exec_of_reads_none hr h with ⟨-, -, hseq⟩ | ⟨href, -⟩
    · exact hseq
    · exact absurd href hn
  · obtain ⟨ok, d, e⟩ := execRd_spec r s
    cases ((exec_rd r s).trans e).symm.trans h
    rfl

end Sys2Proof.Machine

open Sys2Proof Sys2Proof.Machine

/-- Settles O44: an instruction on the list of R185 ends in `refuseSeq`, and any other keeps FLT_SEQ. -/
theorem sequenceFaultsExactlyAsListed : Obligations.SequenceFaultsExactlyAsListed := by
  intro i s t h
  rw [← seqRefused_iff]
  refine ⟨fun href => ?_, fun hn => exec_keeps_fltSeq hn h⟩
  cases (exec_of_seqRefused href).symm.trans h
  rfl

end

section
/-! PROOFS. The reset edge (70_reset_and_hazards.md R210): the reset block holds the reset values, no other edge clears
a sticky fault bit, and the statement O9. -/

namespace Sys2Proof.Machine

open Sys2Proof

/-- Reset clears every byte of the frame buffer, whatever it held (10_state.md R35). -/
@[simp] theorem bufByte_resetBlock (s : State) (i : Fin 7) : bufByte (resetBlock s) i = 0x00#8 :=
  bufByte_seedFrame .idle .gas5 s i

/-- At an edge without reset FLT_ILL stays 1: such an edge only ever sets it. -/
theorem clockEdge_keeps_fltIll {p : PortIn} {s t : State} (hr : p.rst = false) (h : clockEdge p s = .next t)
    (hs : s.fltIll = true) : t.fltIll = true :=
  (clockEdge_fltIll_iff hr h).mpr (.inl hs)

end Sys2Proof.Machine

open Sys2Proof Sys2Proof.Machine

/-- Settles O9: with reset the edge answers `resetBlock`, whose fields are the reset values; without reset it keeps each
sticky bit that is 1. -/
theorem resetEdgeGivesTheResetState : Obligations.ResetEdgeGivesTheResetState := by
  refine ⟨fun p s hr => ?_, fun p s t hr h => ?_⟩
  · exact ⟨resetBlock s, clockEdge_reset hr s, rfl, rfl, rfl, rfl, bufByte_resetBlock s, rfl, rfl, rfl, rfl⟩
  · exact ⟨clockEdge_keeps_fltIll hr h, clockEdge_keeps_fltSeq hr h⟩

end

section
/-! PROOFS. Decoding and encoding as inverses (30_encoding.md R71, R73, R74), the rows of the opcode table, the legal
words counted opcode by opcode, and the statements O1, O2, O4 and O5. -/

namespace Sys2Proof

theorem encode_of_decode {w : CmdWord} {i : Instr} (h : decode w = .ok i) : encode i = w := by
  induction w using forall_word with | h o a => ?_
  rcases decode_cases o a with ⟨-, e⟩ | ⟨-, -, e⟩ | ⟨-, -, e⟩ | ⟨-, -, e⟩ | ⟨-, -, e⟩ | ⟨rfl, rfl, e⟩ | ⟨rfl, rfl, e⟩ |
    ⟨rfl, e⟩ | ⟨rfl, e⟩ | ⟨rfl, sh, rfl, e⟩ | ⟨rfl, r, rfl, e⟩ <;> cases e.symm.trans h
  -- the five commands that are no `rd`
  iterate 5 rfl
  exact encode_rd r

theorem decode_eq_ok_iff (w : CmdWord) (i : Instr) : decode w = .ok i ↔ encode i = w :=
  ⟨encode_of_decode, fun h => h ▸ decode_encode i⟩

/-! ### Legal words (30_encoding.md R72) -/

/-- A word is legal exactly when its fields are none of the cases of R78. -/
theorem wordLegal_iff (w : CmdWord) : wordLegal w = true ↔ ¬IllegalFields (opcOf w).toNat (argOf w).toNat := by
  have hreserved (o : BitVec 4) : o.toNat = 0 ∨ 7 ≤ o.toNat → opcKind o = none := by revert o; decide
  have hzero : argOf w = 0x00#8 ↔ (argOf w).toNat = 0 := (BitVec.toNat_inj (y := 0x00#8)).symm
  unfold wordLegal IllegalFields
  rcases opc_cases (opcOf w) with h | h | h | h | h | h | h
  case inl =>
    rw [hreserved _ h]
    exact iff_of_false nofun (not_not_intro (h.imp_right .inl))
  all_goals
    rw [h]
    simp [opcKind, ArgKind.legal, BitVec.le_def, hzero, Nat.lt_succ_iff]

/-- The operand kinds and the decoder accept the same words. -/
theorem wordLegal_iff_decode (w : CmdWord) : wordLegal w = true ↔ ∃ i, decode w = .ok i := by
  rw [wordLegal_iff, ← decode_error_iff]
  cases decode w <;> simp

/-! ### The rows of the opcode table (30_encoding.md R73) -/

theorem rowOf_holds_encode (i : Instr) : (rowOf i).holds (encode i) = true := by
  cases i with
  | crcUpd b => exact Laws.TableRow.crcUpd b
  | frmPush b => exact Laws.TableRow.frmPush b
  | frmOpen sh => exact Laws.TableRow.frmOpen sh
  | crcInit | frmAbort | rdStat | rdCrc | rdCrcExp | rdCrcAct | rdRaw32 | rdRes | rdTvoc | rdSflags | rdHum | rdTemp =>
    rfl

theorem rowOf_mem_opcodeTable (i : Instr) : rowOf i ∈ opcodeTable := by
  cases i <;> simp [opcodeTable, rowOf]

theorem opcodeTable_nodup : opcodeTable.Nodup := by decide

/-- Any two rows differ in a bit that both masks look at. -/
theorem row_eq_of_agree : ∀ r ∈ opcodeTable, ∀ q ∈ opcodeTable,
    r.pattern &&& q.mask = q.pattern &&& r.mask → r = q := by decide

/-- No word stands in two rows. -/
theorem row_eq_of_holds {r q : Row} {w : CmdWord} (hr : r ∈ opcodeTable) (hq : q ∈ opcodeTable)
    (hrw : r.holds w = true) (hqw : q.holds w = true) : r = q := by
  apply row_eq_of_agree r hr q hq
  have hrw : w &&& r.mask = r.pattern := of_decide_eq_true hrw
  have hqw : w &&& q.mask = q.pattern := of_decide_eq_true hqw
  rw [← hrw, ← hqw]
  ac_rfl

/-- A row holds of the words that have its opcode and, under its operand mask, its operand. -/
theorem Row.holds_iff {r : Row} {w : CmdWord} :
    r.holds w = true ↔ opcOf w &&& opcOf r.mask = opcOf r.pattern ∧ argOf w &&& argOf r.mask = argOf r.pattern := by
  have hand : w &&& r.mask = (opcOf w &&& opcOf r.mask) ++ (argOf w &&& argOf r.mask) := by
    rw [← BitVec.and_append, opcOf_append_argOf, opcOf_append_argOf]
  rw [Row.holds, decide_eq_true_iff, hand]
  constructor
  · intro h
    exact ⟨by rw [← h, opcOf_append], by rw [← h, argOf_append]⟩
  · rintro ⟨ho, ha⟩
    rw [ho, ha, opcOf_append_argOf]

/-- Outside the three rows with free operand bits, a row is one legal word. -/
theorem row_cases : ∀ r ∈ opcodeTable, r = ⟨0x200#12, 0xF00#12⟩ ∨ r = ⟨0x400#12, 0xF00#12⟩ ∨
    r = ⟨0x300#12, 0xFFE#12⟩ ∨ (r.mask = BitVec.allOnes 12 ∧ wordLegal r.pattern = true) := by decide

/-- Every word of a row is legal. -/
theorem wordLegal_of_holds {r : Row} {w : CmdWord} (hr : r ∈ opcodeTable) (h : r.holds w = true) :
    wordLegal w = true := by
  have hshape (a : Byte) : a &&& 0xFE#8 = 0x00#8 → a ≤ 0x01#8 := by revert a; decide
  rcases row_cases r hr with rfl | rfl | rfl | ⟨hmask, hlegal⟩
  · obtain ⟨ho, -⟩ := Row.holds_iff.mp h
    have ho : opcOf w = 0x2#4 := BitVec.and_allOnes.symm.trans ho
    simp [wordLegal, ho, opcKind, ArgKind.legal]
  · obtain ⟨ho, -⟩ := Row.holds_iff.mp h
    have ho : opcOf w = 0x4#4 := BitVec.and_allOnes.symm.trans ho
    simp [wordLegal, ho, opcKind, ArgKind.legal]
  · obtain ⟨ho, ha⟩ := Row.holds_iff.mp h
    have ho : opcOf w = 0x3#4 := BitVec.and_allOnes.symm.trans ho
    simpa [wordLegal, ho, opcKind, ArgKind.legal] using hshape (argOf w) ha
  · have hw : w &&& r.mask = r.pattern := of_decide_eq_true h
    rw [hmask, BitVec.and_allOnes] at hw
    exact hw ▸ hlegal

/-! ### Counting the legal words -/

/-- A count over `m` blocks of `n` numbers is the sum of the counts of the blocks. -/
theorem countP_range_mul (p : Nat → Bool) (m n : Nat) :
    (List.range (m * n)).countP p =
      ((List.range m).map (fun q => (List.range n).countP (fun r => p (q * n + r)))).sum := by
  induction m with
  | zero => simp
  | succ m ih =>
    rw [Nat.succ_mul, List.range_add, List.countP_append, ih, List.range_succ, List.map_append, List.sum_append,
      List.countP_map]
    simp [Function.comp_def]

/-- The legal operands of a kind, counted (30_encoding.md R72). -/
def ArgKind.legalCount : ArgKind → Nat
  | .none => 1
  | .imm8 => 256
  | .shape => 2
  | .reg => 10

theorem ArgKind.countP_legal (k : ArgKind) :
    (List.range 256).countP (fun a => k.legal (BitVec.ofNat 8 a)) = k.legalCount := by
  cases k <;> decide +kernel

/-- The legal words of an opcode are as many as the legal operands of its kind. -/
theorem countP_wordLegal_opcode (q : Nat) :
    (List.range 256).countP (fun a => wordLegal (BitVec.ofNat 12 (q * 256 + a))) =
      ((opcKind (BitVec.ofNat 4 q)).map ArgKind.legalCount).getD 0 := by
  have hfields : ∀ a ∈ List.range 256, wordLegal (BitVec.ofNat 12 (q * 256 + a)) =
      ((opcKind (BitVec.ofNat 4 q)).map (fun k => k.legal (BitVec.ofNat 8 a))).getD false := by
    intro a ha
    have ha := List.mem_range.mp ha
    have ho : opcOf (BitVec.ofNat 12 (q * 256 + a)) = BitVec.ofNat 4 q := by
      apply BitVec.eq_of_toNat_eq
      rw [opcOf_toNat, BitVec.toNat_ofNat, BitVec.toNat_ofNat]
      omega
    have hargs : argOf (BitVec.ofNat 12 (q * 256 + a)) = BitVec.ofNat 8 a := by
      apply BitVec.eq_of_toNat_eq
      rw [argOf_toNat, BitVec.toNat_ofNat, BitVec.toNat_ofNat]
      omega
    rw [wordLegal, ho, hargs]
    cases opcKind (BitVec.ofNat 4 q) <;> rfl
  rw [List.countP_congr fun a ha => by rw [hfields a ha]]
  cases opcKind (BitVec.ofNat 4 q) with
  | none => simp
  | some k => exact k.countP_legal

end Sys2Proof

open Sys2Proof Sys2Proof.Machine

/-- Settles O1: what decodes to an instruction is its encoding, and an encoding decodes to its instruction. -/
theorem decodeAndEncodeAgree : Obligations.DecodeAndEncodeAgree := decode_eq_ok_iff

/-- Settles O4: a legal word is the encoding of an instruction, whose row is the one row it stands in; every word of a
row is legal. -/
theorem legalWordsHaveExactlyOneRow : Obligations.LegalWordsHaveExactlyOneRow := by
  refine fun w => ⟨wordLegal_iff_decode w, ?_⟩
  by_cases hw : wordLegal w = true
  · obtain ⟨i, hd⟩ := (wordLegal_iff_decode w).mp hw
    have hi : (rowOf i).holds w = true := encode_of_decode hd ▸ rowOf_holds_encode i
    have hrow : ∀ r ∈ opcodeTable, (r.holds w = true ↔ (r == rowOf i) = true) := fun r hr => by
      rw [beq_iff_eq]
      exact ⟨fun h => row_eq_of_holds hr (rowOf_mem_opcodeTable i) h hi, fun h => h ▸ hi⟩
    rw [if_pos hw, List.countP_congr hrow]
    exact List.count_eq_one_of_mem opcodeTable_nodup (rowOf_mem_opcodeTable i)
  · rw [if_neg hw, List.countP_eq_zero]
    exact fun r hr h => hw (wordLegal_of_holds hr h)

/-- Settles O2: each word is the encoding of the instruction named. -/
theorem writtenWordsDecode : Obligations.WrittenWordsDecode :=
  ⟨decode_encode .crcInit, decode_encode (.crcUpd 0xC3#8), decode_encode (.frmOpen .gas5),
    decode_encode (.frmOpen .ht7), decode_encode (.frmPush 0xFF#8), decode_encode .frmAbort, decode_encode .rdStat, decode_encode .rdTemp⟩

/-- Settles O5: the legal words, opcode by opcode, are 1 + 256 + 2 + 256 + 1 + 10; the illegal ones are the others. -/
theorem legalWordsAreFiveHundredTwentySix : Obligations.LegalWordsAreFiveHundredTwentySix := by
  have hlegal : (List.range (16 * 256)).countP (fun n => wordLegal (BitVec.ofNat 12 n)) = 526 := by
    rw [countP_range_mul, List.map_congr_left fun q _ => countP_wordLegal_opcode q]
    decide
  refine ⟨hlegal, ?_⟩
  have htotal := List.length_eq_countP_add_countP (fun n => wordLegal (BitVec.ofNat 12 n)) (l := List.range (16 * 256))
  rw [hlegal, List.length_range] at htotal
  simp only [Bool.not_eq_true, Bool.decide_eq_false] at htotal
  show (List.range (16 * 256)).countP (fun n => !wordLegal (BitVec.ofNat 12 n)) = 3570
  omega

end

section
/-! PROOFS. The invariant of 10_state.md R34: what a push does to each part of the frame, that every command and edge
keeps the invariant, that under it every command completes, and the statements O51, O52, O53 and O54. -/

namespace Sys2Proof.Machine

open Sys2Proof

/-! ### What an executed push does (41_frame.md R112) -/

@[simp] theorem pushByte_idx (i : Fin 7) (b : Byte) (s : State) : (pushByte i b s).idx = s.idx + 1#3 := by
  simp only [pushByte, finishFrame, foldByte]
  split <;> split <;> rfl

/-- A push that does not complete the frame leaves FSM and ERR. -/
theorem pushByte_more {b : Byte} {s : State} (hi : s.idx.toNat < 7) (hl : s.idx.toNat + 1 ≠ Config.len s.shape) :
    (pushByte ⟨s.idx.toNat, hi⟩ b s).fsm = s.fsm ∧ (pushByte ⟨s.idx.toNat, hi⟩ b s).err = s.err := by
  rcases Nat.lt_or_gt_of_ne hl with hl | hl
  · rw [pushByte_data hi hl]
    exact ⟨rfl, rfl⟩
  · rw [pushByte_beyond hi (Nat.le_of_lt_succ hl)]
    exact ⟨rfl, rfl⟩

/-- The push that completes the frame ends in DONE with the verdict (41_frame.md R115). -/
theorem pushByte_complete {b : Byte} {s : State} (hi : s.idx.toNat < 7) (hl : s.idx.toNat + 1 = Config.len s.shape) :
    (pushByte ⟨s.idx.toNat, hi⟩ b s).fsm = .done ∧
      (pushByte ⟨s.idx.toNat, hi⟩ b s).err = verdict (pushByte ⟨s.idx.toNat, hi⟩ b s) := by
  rw [pushByte_last hi hl]
  exact ⟨rfl, rfl⟩

/-- A data byte is folded into CRC, any other byte is not (41_frame.md R113). -/
theorem pushByte_crc (i : Fin 7) (b : Byte) (s : State) :
    (pushByte i b s).crc = if s.idx.toNat < Config.dlen s.shape then crc8Step s.crc b else s.crc := by
  have hcrc : (pushByte i b s).crc = (foldByte b (storeByte i b s)).crc := by
    unfold pushByte finishFrame
    split <;> rfl
  rw [hcrc, foldByte, apply_ite State.crc]
  rfl

theorem bufByte_pushByte (i j : Fin 7) (b : Byte) (s : State) :
    bufByte (pushByte i b s) j = if i = j then b else bufByte s j := by
  obtain ⟨-, -, -, -, -, hbuf⟩ := pushByte_fields i b s
  have hstore : bufByte (pushByte i b s) j = bufByte (storeByte i b s) j := bufByte_congr hbuf j
  split
  case isTrue h => rw [hstore, h, bufByte_storeByte_self]
  case isFalse h => rw [hstore, bufByte_storeByte_of_ne h]

theorem bufByte_pushByte_of_ne {i j : Fin 7} (h : i ≠ j) (b : Byte) (s : State) :
    bufByte (pushByte i b s) j = bufByte s j := by
  rw [bufByte_pushByte, if_neg h]

/-- A pushed byte is the last of the bytes pushed so far. -/
theorem pushedBytes_pushByte {b : Byte} {s : State} (hi : s.idx.toNat < 7) :
    pushedBytes (pushByte ⟨s.idx.toNat, hi⟩ b s) = pushedBytes s ++ [b] := by
  obtain ⟨-, -, -, -, -, hbuf⟩ := pushByte_fields ⟨s.idx.toNat, hi⟩ b s
  rw [pushedBytes, pushedBytes, pushByte_idx, idx_add_one hi, hbuf, Vector.toList_set,
    List.take_succ_eq_append_getElem (by simpa using hi), List.getElem_set_self, List.take_set_of_le (Nat.le_refl _)]

theorem crc8_append_singleton (bs : List Byte) (b : Byte) : crc8 (bs ++ [b]) = crc8Step (crc8 bs) b :=
  crc8From_append Config.seed bs [b]

/-- Once the checksum byte is stored, the data bytes are those pushed before it. -/
theorem dataBytes_pushByte_last {b : Byte} {s : State} (hi : s.idx.toNat < 7)
    (hl : s.idx.toNat + 1 = Config.len s.shape) :
    dataBytes (pushByte ⟨s.idx.toNat, hi⟩ b s) = pushedBytes s := by
  obtain ⟨hshape, -, -, -, -, hbuf⟩ := pushByte_fields ⟨s.idx.toNat, hi⟩ b s
  have hdlen : Config.dlen s.shape = s.idx.toNat := by rw [Config.dlen, ← hl, Nat.add_sub_cancel]
  rw [dataBytes, pushedBytes, hshape, hdlen, hbuf, Vector.toList_set, List.take_set_of_le (Nat.le_refl _)]

/-! ### The invariant, operation by operation -/

/-- The invariant looks at neither the response, nor the fault bits, nor the inputs to come. -/
theorem stateInv_of_quiet {s : State} (h : StateInv s) (ill seq : Bool) (a : Option Response) (ps : List PortIn) :
    StateInv { s with fltIll := ill, fltSeq := seq, rsp := a, pins := ps } := h

theorem stateInv_seedFrame_recv (sh : Shape) (s : State) : StateInv (seedFrame .recv sh s) := by
  have hlen : 0 < Config.len sh := by cases sh <;> decide
  exact ⟨nofun, fun _ => ⟨hlen, rfl, fun i _ => bufByte_seedFrame _ sh s i, rfl⟩, nofun, nofun,
    fun _ => ⟨bufByte_seedFrame _ sh s 5, bufByte_seedFrame _ sh s 6⟩⟩

theorem stateInv_seedFrame_idle (s : State) : StateInv (seedFrame .idle .gas5 s) :=
  ⟨fun _ => ⟨rfl, rfl, rfl, bufByte_seedFrame _ _ s⟩, nofun, nofun, nofun,
    fun _ => ⟨bufByte_seedFrame _ _ s 5, bufByte_seedFrame _ _ s 6⟩⟩

theorem stateInv_resetBlock (s : State) : StateInv (resetBlock s) :=
  stateInv_of_quiet (stateInv_seedFrame_idle s) false false none s.pins

/-- In IDLE the invariant leaves CRC free: the checksum commands use it (40_checksum.md R94, R95). -/
theorem stateInv_setCrc {s : State} (h : StateInv s) (hf : s.fsm = .idle) (c : Byte) : StateInv (setCrc c s) := by
  obtain ⟨hidle, -, -, huncal, htail⟩ := h
  have hrecv : s.fsm ≠ .recv := by simp [hf]
  have hdone : s.fsm ≠ .done := by simp [hf]
  exact ⟨hidle, fun h => absurd h hrecv, fun h => absurd h hdone, huncal, htail⟩

/-- A push below LEN leaves bytes 5 and 6 of a GAS5 frame blank (10_state.md R22). -/
theorem invGasTail_pushByte {b : Byte} {s : State} (h : InvGasTail s) (hi : s.idx.toNat < 7)
    (hlt : s.idx.toNat < Config.len s.shape) : InvGasTail (pushByte ⟨s.idx.toNat, hi⟩ b s) := by
  obtain ⟨hshape, -⟩ := pushByte_fields ⟨s.idx.toNat, hi⟩ b s
  intro hgas
  rw [hshape] at hgas
  have hlt : s.idx.toNat < 5 := hlt.trans_eq (congrArg Config.len hgas)
  obtain ⟨h5, h6⟩ := h hgas
  have hne (j : Fin 7) (hj : 5 ≤ j.val) : (⟨s.idx.toNat, hi⟩ : Fin 7) ≠ j := Fin.ne_of_val_ne (by simp; omega)
  exact ⟨(bufByte_pushByte_of_ne (hne 5 (by decide)) b s).trans h5,
    (bufByte_pushByte_of_ne (hne 6 (by decide)) b s).trans h6⟩

/-- A data byte pushed: CRC stays the checksum of the bytes so far, and the bytes to come stay blank. -/
theorem stateInv_pushByte_data {b : Byte} {s : State} (h : StateInv s) (hf : s.fsm = .recv) (hi : s.idx.toNat < 7)
    (hl : s.idx.toNat + 1 < Config.len s.shape) : StateInv (pushByte ⟨s.idx.toNat, hi⟩ b s) := by
  obtain ⟨-, hrecv, -, huncal, htail⟩ := h
  obtain ⟨-, herr, hblank, hcrc⟩ := hrecv hf
  obtain ⟨hshape, -⟩ := pushByte_fields ⟨s.idx.toNat, hi⟩ b s
  obtain ⟨hfsm', herr'⟩ := pushByte_more (b := b) hi (Nat.ne_of_lt hl)
  have hfsm' := hfsm'.trans hf
  have herr' := herr'.trans herr
  have hdata : s.idx.toNat < Config.dlen s.shape := Nat.lt_sub_of_add_lt hl
  refine ⟨fun h => ?_, fun _ => ⟨?_, herr', fun j hj => ?_, ?_⟩, fun h => ?_, fun h => ?_,
    invGasTail_pushByte htail hi (Nat.lt_of_succ_lt hl)⟩
  · cases hfsm'.symm.trans h
  · rwa [pushByte_idx, idx_add_one hi, hshape]
  · rw [pushByte_idx, idx_add_one hi] at hj
    have hne : (⟨s.idx.toNat, hi⟩ : Fin 7) ≠ j := Fin.ne_of_val_ne (Nat.ne_of_lt hj)
    rw [bufByte_pushByte_of_ne hne]
    exact hblank j (Nat.le_of_succ_le hj)
  · rw [pushedBytes_pushByte, crc8_append_singleton, ← hcrc, pushByte_crc, if_pos hdata]
  · cases hfsm'.symm.trans h
  · cases herr'.symm.trans h

theorem verdict_uncal_shape {s : State} (h : verdict s = .uncal) : s.shape = .ht7 := by
  rcases verdict_cases s with ⟨hv, -⟩ | ⟨-, -, hs, -⟩ | ⟨hv, -⟩
  · cases hv.symm.trans h
  · exact hs
  · cases hv.symm.trans h

/-- The last byte pushed: CRC stays the checksum of the data bytes, and ERR takes the verdict. -/
theorem stateInv_pushByte_last {b : Byte} {s : State} (h : StateInv s) (hf : s.fsm = .recv) (hi : s.idx.toNat < 7)
    (hl : s.idx.toNat + 1 = Config.len s.shape) : StateInv (pushByte ⟨s.idx.toNat, hi⟩ b s) := by
  obtain ⟨-, hrecv, -, -, htail⟩ := h
  obtain ⟨-, -, -, hcrc⟩ := hrecv hf
  obtain ⟨hshape, -⟩ := pushByte_fields ⟨s.idx.toNat, hi⟩ b s
  obtain ⟨hfsm, herr⟩ := pushByte_complete (b := b) hi hl
  have hlast : ¬s.idx.toNat < Config.dlen s.shape := by
    rw [Config.dlen, ← hl]
    exact Nat.lt_irrefl _
  refine ⟨fun h => ?_, fun h => ?_, fun _ => ⟨?_, ?_, herr⟩, fun h => verdict_uncal_shape (herr.symm.trans h),
    invGasTail_pushByte htail hi (Nat.lt_of_succ_le (Nat.le_of_eq hl))⟩
  · cases hfsm.symm.trans h
  · cases hfsm.symm.trans h
  · rwa [pushByte_idx, idx_add_one hi, hshape]
  · rw [dataBytes_pushByte_last hi hl, ← hcrc, pushByte_crc, if_neg hlast]

theorem stateInv_pushByte {b : Byte} {s : State} (h : StateInv s) (hf : s.fsm = .recv) (hi : s.idx.toNat < 7) :
    StateInv (pushByte ⟨s.idx.toNat, hi⟩ b s) := by
  have ⟨_, hrecv, _⟩ := h
  obtain ⟨hlt, -⟩ := hrecv hf
  rcases Nat.lt_or_eq_of_le (Nat.succ_le_of_lt hlt) with hl | hl
  · exact stateInv_pushByte_data h hf hi hl
  · exact stateInv_pushByte_last h hf hi hl

/-! ### Every command, edge and step keeps the invariant -/

theorem stateInv_exec {i : Instr} {s t : State} (h : StateInv s) (he : exec i s = .next t) : StateInv t := by
  rcases exec_next_cases he with ⟨-, hf, rfl⟩ | ⟨b, -, hf, rfl⟩ | ⟨-, -, rfl⟩ | ⟨sh, -, rfl⟩ | ⟨-, rfl⟩ |
    ⟨b, -, -, rfl⟩ | ⟨b, hi, -, hf, rfl⟩ | ⟨r, ok, d, -, rfl⟩
  · exact stateInv_setCrc h hf _
  · exact stateInv_setCrc h hf _
  · exact h
  · exact stateInv_seedFrame_recv sh s
  · exact stateInv_seedFrame_idle s
  · exact h
  · exact stateInv_pushByte h hf hi
  · exact h

theorem stateInv_issue {w : CmdWord} {s t : State} (h : StateInv s) (he : issue w s = .next t) : StateInv t := by
  cases hd : decode w with
  | ok i => exact stateInv_exec h ((issue_legal hd s).symm.trans he)
  | error e =>
    cases (issue_illegal hd s).symm.trans he
    exact h

theorem stateInv_clockEdge {p : PortIn} {s t : State} (h : StateInv s) (he : clockEdge p s = .next t) :
    StateInv t := by
  rcases clockEdge_cases p s with ⟨-, e⟩ | ⟨-, -, e⟩ | ⟨-, -, e⟩
  · cases e.symm.trans he
    exact stateInv_resetBlock s
  · exact stateInv_issue h (e.symm.trans he)
  · cases e.symm.trans he
    exact h

theorem stateInv_step {s t : State} (h : StateInv s) (he : step s = .next t) : StateInv t :=
  stateInv_clockEdge (s := takeInput s) h he

/-! ### Every run and every command under the invariant -/

theorem run_succ (n : Nat) (s : State) : Sys2Proof.core.run (n + 1) s = andThen (step s) (Sys2Proof.core.run n) := by
  have hcore : Sys2Proof.core.step s = step s := rfl
  simp only [Host.Core.run, hcore]
  cases step s <;> rfl

/-- What every step keeps, a run keeps. -/
theorem run_keeps {P : State → Prop} (hstep : ∀ s t, P s → step s = .next t → P t) {n : Nat} {s t : State} (hs : P s)
    (h : Sys2Proof.core.run n s = .next t) : P t := by
  induction n generalizing s with
  | zero =>
    cases h
    exact hs
  | succ n ih =>
    rw [run_succ] at h
    cases hu : step s with
    | next u => exact ih (hstep s u hs hu) (by rwa [hu] at h)
    | fault r => rw [hu] at h; cases h
    | refused r => rw [hu] at h; cases h

theorem len_le_seven (sh : Shape) : Config.len sh ≤ 7 := by cases sh <;> decide

/-- In RECV the next push names a byte of the frame, so no command stops the machine (20_memory.md R58). -/
theorem stateInv_exec_completes {s : State} (h : StateInv s) (i : Instr) : ∃ t, exec i s = .next t := by
  obtain ⟨-, hrecv, -⟩ := h
  rcases exec_cases i s with ⟨t, e, -⟩ | ⟨e, -⟩ | ⟨r, -, e⟩ | ⟨b, -, hf, hi, -⟩
  · exact ⟨_, e⟩
  · exact ⟨_, e⟩
  · obtain ⟨ok, d, e'⟩ := execRd_spec r s
    exact ⟨_, e.trans e'⟩
  · obtain ⟨hlt, -⟩ := hrecv hf
    have hle := len_le_seven s.shape
    omega

theorem stateInv_issue_completes {s : State} (h : StateInv s) (w : CmdWord) : ∃ t, issue w s = .next t := by
  cases hd : decode w with
  | ok i => exact issue_legal hd s ▸ stateInv_exec_completes h i
  | error e => exact ⟨_, issue_illegal hd s⟩

theorem stateInv_step_completes {s : State} (h : StateInv s) : ∃ t, step s = .next t := by
  have htake : StateInv (takeInput s) := h
  rcases clockEdge_cases (nextInput s) (takeInput s) with ⟨-, e⟩ | ⟨-, -, e⟩ | ⟨-, -, e⟩
  · exact ⟨_, e⟩
  · obtain ⟨t, ht⟩ := stateInv_issue_completes htake (nextInput s).cmd
    exact ⟨t, e.trans ht⟩
  · exact ⟨_, e⟩

end Sys2Proof.Machine

open Sys2Proof Sys2Proof.Machine

/-- Settles O52: the edge of the step keeps the invariant, by what each operation does to it. -/
theorem stepKeepsTheInvariant : Obligations.StepKeepsTheInvariant := fun _ _ hs h => stateInv_step hs h

/-- Settles O51: the reset state is what a reset edge leaves. -/
theorem resetMeetsTheInvariant : Obligations.ResetMeetsTheInvariant := fun p ins =>
  stateInv_resetBlock { State.reset with params := p, pins := ins }

/-- Settles O53: the invariant holds at reset and every step keeps it; FSM and ERR have no fourth code; and the sticky
bits are cleared by reset alone. -/
theorem reachableStatesMeetTheInvariants : Obligations.ReachableStatesMeetTheInvariants := by
  intro n p ins s hrun
  have hfsm (f : Fsm) : fsmCode f ≠ 3#2 := by cases f <;> decide
  have herr (e : Err) : errCode e ≠ 3#2 := by cases e <;> decide
  obtain ⟨hidle, hrecv, hdone, huncal, -⟩ := run_keeps stepKeepsTheInvariant (resetMeetsTheInvariant p ins) hrun
  refine ⟨hfsm s.fsm, herr s.err, hidle, hrecv, hdone, huncal, fun t ht hrst => ?_⟩
  exact ⟨clockEdge_keeps_fltIll (s := takeInput s) hrst ht, clockEdge_keeps_fltSeq (s := takeInput s) hrst ht⟩

/-- Settles O54: under the invariant no push has IDX = 7, the one stop of the model. -/
theorem everyCommandCompletes : Obligations.EveryCommandCompletes := by
  intro s hs
  have ⟨_, hrecv, _⟩ := hs
  refine ⟨stateInv_step_completes hs, stateInv_exec_completes hs, fun hf => ?_⟩
  obtain ⟨hlt, -⟩ := hrecv hf
  exact ⟨hlt, len_le_seven s.shape⟩

end

section
/-! PROOFS. The step by the next input (00_scope.md R5, R6, R8), what it does to the model's own two fields, the run
over command words as a fold (20_memory.md R59), and the statements O7, O8, O11, O12 and O57. -/

namespace Sys2Proof.Machine

open Sys2Proof

/-! ### The step by the next input -/

theorem step_of_pins {s : State} {p : PortIn} {rest : List PortIn} (h : s.pins = p :: rest) :
    step s = clockEdge p { s with pins := rest } := by
  rw [step, nextInput, takeInput, h]
  rfl

theorem step_of_no_pins {s : State} (h : s.pins = []) : step s = .next { s with rsp := none } := by
  have hnext : nextInput s = noInput := by rw [nextInput, h, List.headD_nil]
  have htake : takeInput s = s := by rw [takeInput, h, List.tail_nil, ← h]
  rw [step, hnext, htake]
  rfl

theorem clockEdge_command {p : PortIn} (hr : p.rst = false) (hv : p.cmdValid = true) (s : State) :
    clockEdge p s = issue p.cmd s := by
  simp [clockEdge, hr, hv]

theorem clockEdge_noCommand {p : PortIn} (hr : p.rst = false) (hv : p.cmdValid = false) (s : State) :
    clockEdge p s = .next (idleEdge s) := by
  simp [clockEdge, hr, hv]

/-! ### The parameters and the inputs to come (notes/assumptions/1.md, 2.md) -/

theorem exec_keeps_own_fields {i : Instr} {s t : State} (h : exec i s = .next t) :
    t.params = s.params ∧ t.pins = s.pins := by
  rcases exec_cases i s with ⟨u, e, -, hparams, hpins, -⟩ | ⟨e, -⟩ | ⟨r, -, e⟩ | ⟨b, -, -, -, e⟩
  · cases e.symm.trans h
    exact ⟨hparams, hpins⟩
  · cases e.symm.trans h
    exact ⟨rfl, rfl⟩
  · obtain ⟨ok, d, e'⟩ := execRd_spec r s
    cases (e.trans e').symm.trans h
    exact ⟨rfl, rfl⟩
  · cases e.symm.trans h

theorem issue_keeps_own_fields {w : CmdWord} {s t : State} (h : issue w s = .next t) :
    t.params = s.params ∧ t.pins = s.pins := by
  cases hd : decode w with
  | ok i => exact exec_keeps_own_fields ((issue_legal hd s).symm.trans h)
  | error e =>
    cases (issue_illegal hd s).symm.trans h
    exact ⟨rfl, rfl⟩

theorem clockEdge_keeps_own_fields {p : PortIn} {s t : State} (h : clockEdge p s = .next t) :
    t.params = s.params ∧ t.pins = s.pins := by
  rcases clockEdge_cases p s with ⟨-, e⟩ | ⟨-, -, e⟩ | ⟨-, -, e⟩
  · cases e.symm.trans h
    exact ⟨rfl, rfl⟩
  · exact issue_keeps_own_fields (e.symm.trans h)
  · cases e.symm.trans h
    exact ⟨rfl, rfl⟩

/-! ### No command looks at the inputs to come -/

/-- The state with other inputs to come. -/
def withPins (ps : List PortIn) (s : State) : State := { s with pins := ps }

theorem readReg_withPins (r : Reg) (ps : List PortIn) (s : State) : readReg r (withPins ps s) = readReg r s := by
  cases r <;> rfl

theorem foldByte_withPins (b : Byte) (ps : List PortIn) (s : State) :
    foldByte b (withPins ps s) = withPins ps (foldByte b s) := by
  rw [foldByte, foldByte, apply_ite (withPins ps)]
  rfl

theorem finishFrame_withPins (ps : List PortIn) (s : State) :
    finishFrame (withPins ps s) = withPins ps (finishFrame s) := by
  rw [finishFrame, finishFrame, apply_ite (withPins ps)]
  rfl

theorem pushByte_withPins (i : Fin 7) (b : Byte) (ps : List PortIn) (s : State) :
    pushByte i b (withPins ps s) = withPins ps (pushByte i b s) := by
  have hfold : foldByte b (storeByte i b (withPins ps s)) = withPins ps (foldByte b (storeByte i b s)) :=
    foldByte_withPins b ps (storeByte i b s)
  rw [pushByte, hfold]
  exact finishFrame_withPins ps (advanceIdx (foldByte b (storeByte i b s)))

theorem exec_crcUpd_of_idle {b : Byte} {s : State} (h : s.fsm = .idle) :
    exec (.crcUpd b) s = complete (setCrc (crc8Step s.crc b) s) :=
  if_neg (not_not_intro h)

/-- IDX = 7 names no byte of the buffer (notes/assumptions/6.md). -/
theorem exec_frmPush_of_idx_seven {b : Byte} {s : State} (hf : s.fsm = .recv) (hi : ¬s.idx.toNat < 7) :
    exec (.frmPush b) s = .fault .noSuchBufferByte :=
  (if_neg (not_not_intro hf)).trans (dif_neg hi)

/-- Other inputs to come give the same outcome, with these inputs to come. -/
theorem exec_withPins (i : Instr) (ps : List PortIn) (s : State) :
    exec i (withPins ps s) = andThen (exec i s) (fun t => .next (withPins ps t)) := by
  rcases reads_cases i with hn | ⟨r, -, rfl⟩
  · cases i with
    | crcInit =>
      by_cases hf : s.fsm = .idle
      · rw [exec_crcInit_of_idle hf, exec_crcInit_of_idle (s := withPins ps s) hf]
        rfl
      · rw [exec_crcInit_of_not_idle hf, exec_crcInit_of_not_idle (s := withPins ps s) hf]
        rfl
    | crcUpd b =>
      by_cases hf : s.fsm = .idle
      · rw [exec_crcUpd_of_idle hf, exec_crcUpd_of_idle (s := withPins ps s) hf]
        rfl
      · rw [exec_crcUpd_of_not_idle hf, exec_crcUpd_of_not_idle (s := withPins ps s) hf]
        rfl
    | frmOpen sh => rfl
    | frmAbort => rfl
    | frmPush b =>
      by_cases hf : s.fsm = .recv
      · by_cases hi : s.idx.toNat < 7
        · rw [exec_frmPush_of_recv hf hi, exec_frmPush_of_recv (s := withPins ps s) hf hi]
          exact congrArg complete (pushByte_withPins _ b ps s)
        · rw [exec_frmPush_of_idx_seven hf hi, exec_frmPush_of_idx_seven (s := withPins ps s) hf hi]
          rfl
      · rw [exec_frmPush_of_not_recv hf, exec_frmPush_of_not_recv (s := withPins ps s) hf]
        rfl
    | rdStat | rdCrc | rdCrcExp | rdCrcAct | rdRaw32 | rdRes | rdTvoc | rdSflags | rdHum | rdTemp => cases hn
  · rw [exec_rd, exec_rd, execRd, execRd, readReg_withPins]
    cases readReg r s <;> rfl

theorem issue_withPins (w : CmdWord) (ps : List PortIn) (s : State) :
    issue w (withPins ps s) = andThen (issue w s) (fun t => .next (withPins ps t)) := by
  cases hd : decode w with
  | ok i => rw [issue_legal hd, issue_legal hd, exec_withPins]
  | error e => rw [issue_illegal hd, issue_illegal hd]; rfl

end Sys2Proof.Machine

open Sys2Proof Sys2Proof.Machine

/-- Settles O7: the edge of a step with a valid legal command is the instruction. -/
theorem stepRunsTheDecodedInstruction : Obligations.StepRunsTheDecodedInstruction := by
  intro s p rest i hp hr hv hd
  rw [step_of_pins hp, clockEdge_command hr hv, issue_legal hd]

/-- Settles O8: an edge without a command is `idleEdge`; where no input is left the host presents none. -/
theorem edgeWithoutCommandChangesNothing : Obligations.EdgeWithoutCommandChangesNothing := by
  refine ⟨fun s p rest hp hr hv => ?_, fun s => step_of_no_pins⟩
  rw [step_of_pins hp, clockEdge_noCommand hr hv]
  rfl

/-- Settles O57: the edge of a step with reset is `resetBlock`. -/
theorem resetStepGivesTheResetState : Obligations.ResetStepGivesTheResetState := by
  intro s p rest hp hr
  exact ⟨_, (step_of_pins hp).trans (clockEdge_reset hr _), rfl, rfl, rfl, rfl, bufByte_resetBlock _, rfl, rfl, rfl,
    rfl, rfl, rfl⟩

/-- Settles O12: the step takes one input, and its edge keeps the two fields. -/
theorem stepKeepsParametersAndTakesOneInput : Obligations.StepKeepsParametersAndTakesOneInput := fun s _ h =>
  clockEdge_keeps_own_fields (s := takeInput s) h

/-- Settles O11: the first step issues the first word, whose outcome does not depend on the inputs to come. -/
theorem runIsTheFoldOverTheCommands : Obligations.RunIsTheFoldOverTheCommands := by
  intro ws rest s hp
  induction ws generalizing s with
  | nil =>
    subst hp
    rfl
  | cons w ws ih =>
    have hstep : step s = issue w (withPins (ws.map commandInput ++ rest) s) :=
      (step_of_pins hp).trans (clockEdge_command rfl rfl _)
    have hissue : issueAll (w :: ws) (withPins rest s) = andThen (issue w (withPins rest s)) (issueAll ws) := rfl
    show _ = issueAll (w :: ws) (withPins rest s)
    rw [List.length_cons, run_succ, hstep, hissue, issue_withPins, issue_withPins]
    cases issue w s with
    | next t => exact ih (withPins (ws.map commandInput ++ rest) t) rfl
    | fault r => rfl
    | refused r => rfl

end

section
/-! PROOFS. The checksum functions (40_checksum.md R90 to R93): the step is linear over XOR and a bijection, so is the
register after a message in its start value, and the statements O16 to O20. -/

namespace Sys2Proof.Machine

open Sys2Proof

/-! ### The shift is linear, with no kernel -/

theorem crcShift_eq_zero {c : Byte} : crcShift c = 0#8 → c = 0#8 := by revert c; decide

theorem crcShift_injective : Function.Injective crcShift := by
  intro a b h
  have hxor : crcShift (a ^^^ b) = 0#8 := by rw [crcShift_xor, h, BitVec.xor_self]
  exact BitVec.xor_eq_zero_iff.mp (crcShift_eq_zero hxor)

theorem crcShifts_injective (n : Nat) : Function.Injective (crcShifts n) := by
  induction n with
  | zero => exact Function.injective_id
  | succ n ih => exact ih.comp crcShift_injective

theorem crcShifts_eq_zero_iff (n : Nat) (c : Byte) : crcShifts n c = 0#8 ↔ c = 0#8 := by
  have hzero : crcShifts n 0#8 = 0#8 := by simpa using crcShifts_xor n 0#8 0#8
  exact ⟨fun h => crcShifts_injective n (h.trans hzero.symm), fun h => h ▸ hzero⟩

/-! ### One byte -/

/-- The step is linear in the register and the byte together (40_checksum.md R93 item 3). -/
theorem crc8Step_xor (c d a b : Byte) : crc8Step (c ^^^ d) (a ^^^ b) = crc8Step c a ^^^ crc8Step d b := by
  rw [crc8Step, crc8Step, crc8Step, ← crcShifts_xor]
  congr 1
  ac_rfl

theorem crc8Step_injective_left (b : Byte) : Function.Injective (fun c => crc8Step c b) := fun _ _ h =>
  (BitVec.xor_left_inj b).mp (crcShifts_injective 8 h)

theorem crc8Step_injective_right (c : Byte) : Function.Injective (crc8Step c) := fun _ _ h =>
  (BitVec.xor_right_inj c).mp (crcShifts_injective 8 h)

theorem crc8Step_eq_zero_iff (c b : Byte) : crc8Step c b = 0#8 ↔ b = c := by
  rw [crc8Step, crcShifts_eq_zero_iff, BitVec.xor_eq_zero_iff, eq_comm]

/-! ### A message -/

theorem crc8From_injective (bs : List Byte) : Function.Injective (fun c => crc8From c bs) := by
  induction bs with
  | nil => exact Function.injective_id
  | cons b bs ih => exact ih.comp (crc8Step_injective_left b)

theorem crc8From_zipWith_xor (c d : Byte) {m e : List Byte} (h : m.length = e.length) :
    crc8From (c ^^^ d) (List.zipWith (fun x y => x ^^^ y) m e) = crc8From c m ^^^ crc8From d e := by
  induction m generalizing c d e with
  | nil =>
    cases e with
    | nil => rfl
    | cons y e => cases h
  | cons x m ih =>
    cases e with
    | nil => cases h
    | cons y e =>
      rw [List.zipWith_cons_cons, crc8From_cons, crc8Step_xor]
      exact ih (crc8Step c x) (crc8Step d y) (Nat.succ.inj h)

/-- Another byte in one place gives another checksum. -/
theorem crc8_ne_of_byte_ne (front back : List Byte) {a b : Byte} (h : a ≠ b) :
    crc8 (front ++ a :: back) ≠ crc8 (front ++ b :: back) := by
  intro heq
  rw [crc8, crc8, crc8From_append, crc8From_append, crc8From_cons, crc8From_cons] at heq
  exact h (crc8Step_injective_right _ (crc8From_injective back heq))

/-- A flipped bit gives another byte. -/
theorem xor_oneHot_ne (b : Byte) (k : Fin 8) : b ^^^ (1#8 <<< k.val) ≠ b := by
  have hmask : 1#8 <<< k.val ≠ 0#8 := by revert k; decide
  intro h
  exact hmask ((BitVec.xor_right_inj b).mp (h.trans BitVec.xor_zero.symm))

theorem crc8_append_eq_zero_iff (d : List Byte) (k : Byte) : crc8 (d ++ [k]) = 0#8 ↔ k = crc8 d := by
  rw [crc8_append_singleton, crc8Step_eq_zero_iff]

end Sys2Proof.Machine

open Sys2Proof Sys2Proof.Machine

/-- Settles O16: the step is injective in either argument, and there are finitely many bytes. -/
theorem checksumStepIsBijective : Obligations.ChecksumStepIsBijective :=
  ⟨fun b => Finite.injective_iff_bijective.mp (crc8Step_injective_left b),
    fun c => Finite.injective_iff_bijective.mp (crc8Step_injective_right c)⟩

/-- Settles O17: the seed is itself XOR the seed 0x00 of `crc8_0`. -/
theorem checksumIsAffine : Obligations.ChecksumIsAffine := fun m e h => by
  rw [crc8, crc8, ← crc8From_zipWith_xor Config.seed 0x00#8 h, BitVec.xor_zero]

/-- Settles O18: the step after the front tells the two bytes apart, and the back keeps them apart. -/
theorem singleBitFlipChangesChecksum : Obligations.SingleBitFlipChangesChecksum := fun front back b k =>
  crc8_ne_of_byte_ne front back (xor_oneHot_ne b k)

/-- Settles O19: the last step gives zero exactly when the byte is the register. -/
theorem appendedChecksumGivesZero : Obligations.AppendedChecksumGivesZero := crc8_append_eq_zero_iff

/-- Settles O20: register and byte enter by their XOR alone; the three entries by computing. -/
theorem checksumStepIsTableLookup : Obligations.ChecksumStepIsTableLookup := by
  refine ⟨fun c b => ?_, by decide, by decide, by decide⟩
  rw [crc8Step, crc8Step, BitVec.zero_xor]

end

section
/-! PROOFS. The commands that leave all but the fault bits and the response (reads, refusals, illegal words), the
checksum commands in IDLE one after another (40_checksum.md R94 to R96), and the statements O14 and O15. -/

namespace Sys2Proof.Machine

open Sys2Proof

/-! ### Reads, refusals and illegal words -/

theorem exec_of_quiet {i : Instr} {s : State} (h : (∃ r, i = Instr.rd r) ∨ SeqRefused i s) :
    ∃ seq a, exec i s = .next { s with fltSeq := seq, rsp := a } := by
  rcases h with ⟨r, rfl⟩ | h
  · obtain ⟨ok, d, e⟩ := execRd_spec r s
    exact ⟨s.fltSeq, some ⟨ok, d⟩, (exec_rd r s).trans e⟩
  · exact ⟨true, _, exec_of_seqRefused h⟩

/-- A word that decodes to no command but an `rd` or one refused SEQ leaves all but the fault bits and the response. -/
theorem issue_of_quiet {w : CmdWord} {s : State}
    (h : ∀ i, decode w = .ok i → (∃ r, i = Instr.rd r) ∨ SeqRefused i s) :
    ∃ ill seq a, issue w s = .next { s with fltIll := ill, fltSeq := seq, rsp := a } := by
  cases hd : decode w with
  | ok i =>
    obtain ⟨seq, a, e⟩ := exec_of_quiet (h i hd)
    exact ⟨s.fltIll, seq, a, (issue_legal hd s).trans e⟩
  | error e => exact ⟨true, s.fltSeq, _, issue_illegal hd s⟩

/-! ### Checksum commands in IDLE -/

/-- The words of the commands that write CRC in IDLE (10_state.md R21). -/
abbrev WritesCrc (w : CmdWord) : Prop := opcOf w = 0x2#4 ∨ w ∈ [0x100#12, 0x300#12, 0x301#12, 0x500#12]

theorem quiet_of_not_writesCrc {w : CmdWord} {s : State} (hs : s.fsm = .idle) (hw : ¬WritesCrc w) (i : Instr)
    (hd : decode w = .ok i) : (∃ r, i = Instr.rd r) ∨ SeqRefused i s := by
  cases encode_of_decode hd
  rcases reads_cases i with hn | ⟨r, -, rfl⟩
  · cases i with
    | crcUpd b => exact absurd (.inl (opcOf_append 0x2#4 b)) hw
    | crcInit | frmAbort => exact absurd (.inr (by decide)) hw
    | frmOpen sh => cases sh <;> exact absurd (.inr (by decide)) hw
    | frmPush b => exact .inr (.inr ⟨⟨b, rfl⟩, by simp [hs]⟩)
    | rdStat | rdCrc | rdCrcExp | rdCrcAct | rdRaw32 | rdRes | rdTvoc | rdSflags | rdHum | rdTemp => cases hn
  · exact .inl ⟨r, rfl⟩

/-- In IDLE, other words leave all but the fault bits and the response. -/
theorem issue_of_not_writesCrc {w : CmdWord} {s : State} (hs : s.fsm = .idle) (hw : ¬WritesCrc w) :
    ∃ ill seq a, issue w s = .next { s with fltIll := ill, fltSeq := seq, rsp := a } :=
  issue_of_quiet (quiet_of_not_writesCrc hs hw)

theorem decode_crcUpd (b : Byte) : decode (0x200#12 ||| b.setWidth 12) = .ok (.crcUpd b) :=
  (congrArg decode (mkWord_zero_or 0x2#4 b)).trans (decode_encode (.crcUpd b))

theorem issue_crcUpd_of_idle {s : State} (hs : s.fsm = .idle) (b : Byte) :
    issue (0x200#12 ||| b.setWidth 12) s = complete (setCrc (crc8Step s.crc b) s) :=
  (issue_legal (decode_crcUpd b) s).trans (exec_crcUpd_of_idle hs)

theorem issue_crcInit_of_idle {s : State} (hs : s.fsm = .idle) :
    issue 0x100#12 s = complete (setCrc Config.seed s) :=
  (issue_legal (decode_encode .crcInit) s).trans (exec_crcInit_of_idle hs)

/-- `crc.upd` words in IDLE fold their bytes into CRC, with other words interleaved. -/
theorem issueAll_crcUpd {ws : List CmdWord} {bs : List Byte} {s : State} (hs : s.fsm = .idle)
    (h : ws.filter (fun w => WritesCrc w) = bs.map (fun b => 0x200#12 ||| b.setWidth 12)) :
    ∃ ill seq a, issueAll ws s =
      .next { s with crc := crc8From s.crc bs, fltIll := ill, fltSeq := seq, rsp := a } := by
  induction ws generalizing bs s with
  | nil =>
    cases List.map_eq_nil_iff.mp h.symm
    exact ⟨s.fltIll, s.fltSeq, s.rsp, rfl⟩
  | cons w ws ih =>
    by_cases hw : WritesCrc w
    · rw [List.filter_cons_of_pos (p := fun w => WritesCrc w) (decide_eq_true hw)] at h
      obtain ⟨b, bs, rfl, rfl, hws⟩ := List.map_eq_cons_iff.mp h.symm
      rw [issueAll_cons, issue_crcUpd_of_idle hs]
      exact ih (s := respond true 0#40 (setCrc (crc8Step s.crc b) s)) hs hws.symm
    · rw [List.filter_cons_of_neg (p := fun w => WritesCrc w) (mt of_decide_eq_true hw)] at h
      obtain ⟨ill, seq, a, e⟩ := issue_of_not_writesCrc hs hw
      rw [issueAll_cons, e]
      exact ih (s := { s with fltIll := ill, fltSeq := seq, rsp := a }) hs h

/-- After `crc.init` the fold starts at the seed. -/
theorem issueAll_crcInit_crcUpd {ws : List CmdWord} {bs : List Byte} {s : State} (hs : s.fsm = .idle)
    (h : ws.filter (fun w => WritesCrc w) = 0x100#12 :: bs.map (fun b => 0x200#12 ||| b.setWidth 12)) :
    ∃ ill seq a, issueAll ws s = .next { s with crc := crc8 bs, fltIll := ill, fltSeq := seq, rsp := a } := by
  induction ws generalizing s with
  | nil => cases h
  | cons w ws ih =>
    by_cases hw : WritesCrc w
    · rw [List.filter_cons_of_pos (p := fun w => WritesCrc w) (decide_eq_true hw)] at h
      obtain ⟨rfl, hws⟩ := List.cons_eq_cons.mp h
      rw [issueAll_cons, issue_crcInit_of_idle hs]
      exact issueAll_crcUpd (s := respond true 0#40 (setCrc Config.seed s)) hs hws
    · rw [List.filter_cons_of_neg (p := fun w => WritesCrc w) (mt of_decide_eq_true hw)] at h
      obtain ⟨ill, seq, a, e⟩ := issue_of_not_writesCrc hs hw
      rw [issueAll_cons, e]
      exact ih (s := { s with fltIll := ill, fltSeq := seq, rsp := a }) hs h

theorem execAll_map_crcUpd (bs : List Byte) {s : State} (hs : s.fsm = .idle) :
    ∃ a, execAll (bs.map .crcUpd) s = .next { s with crc := crc8From s.crc bs, rsp := a } := by
  induction bs generalizing s with
  | nil => exact ⟨s.rsp, rfl⟩
  | cons b bs ih =>
    rw [List.map_cons, execAll_cons, exec_crcUpd_of_idle hs]
    exact ih (s := respond true 0#40 (setCrc (crc8Step s.crc b) s)) hs

end Sys2Proof.Machine

open Sys2Proof Sys2Proof.Machine

/-- Settles O14: the words of `crc.upd` decode to it, it folds its byte in IDLE and is refused SEQ elsewhere, and a list
of words by induction, the first CRC writer being `crc.init`. -/
theorem crcUpdFoldsByteSequence : Obligations.CrcUpdFoldsByteSequence :=
  ⟨decode_crcUpd, fun _ _ hs => exec_crcUpd_of_idle hs, fun _ _ hs => exec_crcUpd_of_not_idle hs,
    fun _ _ _ hs h => issueAll_crcInit_crcUpd hs h⟩

/-- Settles O15: `crc.init` seeds CRC, the bytes are folded in, and `rd crc` answers the register. -/
theorem crcSumAnswersTheChecksum : Obligations.CrcSumAnswersTheChecksum := by
  refine ⟨fun bs s hs => ?_, rfl⟩
  obtain ⟨a, hupd⟩ := execAll_map_crcUpd bs (s := respond true 0#40 (setCrc Config.seed s)) hs
  rw [expandPseudo, execAll_cons, exec_crcInit_of_idle hs, complete, andThen_next, execAll_append, hupd, andThen_next,
    execAll_singleton, exec_rdCrc]
  rfl

end

section
/-! PROOFS. The checksum as a polynomial remainder over GF(2) (40_checksum.md R92 (a)), and the statement O21: one
shift of the register is a multiplication by x in the ring of polynomials modulo the generator. -/

namespace Sys2Proof.PolynomialForm

open Sys2Proof Sys2Proof.Machine Polynomial

/-! ### Bytes as polynomials -/

/-- XOR of bytes is addition over GF(2). -/
theorem ofByte_xor (a b : Byte) : ofByte (a ^^^ b) = ofByte a + ofByte b := by
  rw [ofByte, ofByte, ofByte, ← Finset.sum_add_distrib]
  refine Finset.sum_congr rfl fun i _ => ?_
  rw [BitVec.getLsbD_xor]
  cases a.getLsbD i <;> cases b.getLsbD i <;> simp [CharTwo.add_self_eq_zero]

theorem degree_ofByte_lt (b : Byte) : (ofByte b).degree < 8 := by
  refine (degree_sum_le _ _).trans_lt ((Finset.sup_lt_iff (by decide)).mpr fun i hi => ?_)
  have hi : i < 8 := Finset.mem_range.mp hi
  split
  · rw [degree_X_pow]
    exact_mod_cast hi
  · rw [degree_zero]
    exact WithBot.bot_lt_coe 8

/-- The generator is x^8 plus the byte POLY. -/
theorem generator_eq : generator = X ^ 8 + ofByte Config.poly := by
  simp [generator, ofByte, Config.poly, Finset.sum_range_succ]
  ring

theorem generator_monic : generator.Monic := by
  rw [generator_eq]
  exact monic_X_pow_add (degree_ofByte_lt Config.poly)

theorem degree_generator : generator.degree = 8 := by
  rw [generator_eq, degree_add_eq_left_of_degree_lt] <;> rw [degree_X_pow]
  · rfl
  · exact degree_ofByte_lt Config.poly

/-- A left shift multiplies by x, but for the bit shifted out. -/
theorem X_mul_ofByte (c : Byte) : X * ofByte c = ofByte (c <<< 1) + if c.getLsbD 7 then X ^ 8 else 0 := by
  have hshift : ∀ i ∈ Finset.range 7, (if (c <<< 1).getLsbD (i + 1) then X ^ (i + 1) else 0 : Polynomial (ZMod 2)) =
      X * if c.getLsbD i then X ^ i else 0 := by
    intro i hi
    have hi : i + 1 < 8 := Nat.succ_lt_succ (Finset.mem_range.mp hi)
    have hbit : (c <<< 1).getLsbD (i + 1) = c.getLsbD i := by
      rw [BitVec.getLsbD_shiftLeft, decide_eq_true hi, Nat.add_sub_cancel]
      rfl
    rw [hbit, mul_ite, mul_zero, ← pow_succ']
  rw [ofByte, ofByte, Finset.sum_range_succ, Finset.sum_range_succ' _ 7, Finset.sum_congr rfl hshift, ← Finset.mul_sum,
    mul_add]
  simp [mul_ite, ← pow_succ']

/-! ### The checksum in the ring of polynomials modulo the generator -/

/-- The class of a polynomial modulo the generator. -/
noncomputable abbrev modG : Polynomial (ZMod 2) →+* AdjoinRoot generator := AdjoinRoot.mk generator

theorem modG_X_pow_eight : modG (X ^ 8) = modG (ofByte Config.poly) := by
  rw [AdjoinRoot.mk_eq_mk, CharTwo.sub_eq_add, ← generator_eq]

/-- One shift of the register multiplies by x (40_checksum.md R90). -/
theorem modG_crcShift (c : Byte) : modG (ofByte (crcShift c)) = modG X * modG (ofByte c) := by
  rw [← map_mul, X_mul_ofByte, crcShift, map_add]
  split
  · rw [ofByte_xor, map_add, modG_X_pow_eight]
  · rw [map_zero, add_zero]

theorem modG_crcShifts (n : Nat) (c : Byte) : modG (ofByte (crcShifts n c)) = modG X ^ n * modG (ofByte c) := by
  induction n generalizing c with
  | zero => rw [crcShifts_zero, pow_zero, one_mul]
  | succ n ih => rw [crcShifts_succ, ih, modG_crcShift, pow_succ, mul_assoc]

theorem modG_crc8Step (c b : Byte) :
    modG (ofByte (crc8Step c b)) = modG X ^ 8 * (modG (ofByte c) + modG (ofByte b)) := by
  rw [crc8Step, modG_crcShifts, ofByte_xor, map_add]

/-- The register after a message: the start value enters with the highest power (40_checksum.md R91). -/
theorem modG_crc8From (c : Byte) (bs : List Byte) :
    modG (ofByte (crc8From c bs)) =
      modG (ofMessage bs * X ^ 8 + ofByte c * X ^ (8 * bs.length)) := by
  induction bs generalizing c with
  | nil => simp [ofMessage]
  | cons b bs ih =>
    rw [crc8From_cons, ih, ofMessage, List.length_cons]
    simp only [map_add, map_mul, map_pow, modG_crc8Step]
    ring

/-- A byte is its own remainder. -/
theorem ofByte_modByMonic (b : Byte) : ofByte b %ₘ generator = ofByte b :=
  (modByMonic_eq_self_iff generator_monic).mpr (degree_generator ▸ degree_ofByte_lt b)

end Sys2Proof.PolynomialForm

open Sys2Proof Sys2Proof.Machine

/-- Settles O21: the two polynomials are equal modulo the generator, and a byte is its own remainder. -/
theorem checksumIsPolynomialRemainder : Obligations.ChecksumIsPolynomialRemainder := by
  intro bs
  have hdvd := AdjoinRoot.mk_eq_mk.mp (PolynomialForm.modG_crc8From Config.seed bs)
  rw [← PolynomialForm.ofByte_modByMonic (crc8 bs)]
  exact Polynomial.modByMonic_eq_of_dvd_sub PolynomialForm.generator_monic hdvd

end

section
/-! PROOFS. What each command can change and what it leaves (10_state.md R21 to R23, 41_frame.md R115), command by
command, and the statements O24, O29 and O46 to O50. -/

namespace Sys2Proof.Machine

open Sys2Proof

/-! ### The next state of each kind of command -/

theorem exec_checksum_next {i : Instr} {s t : State} (hi : i = .crcInit ∨ ∃ b, i = .crcUpd b)
    (h : exec i s = .next t) :
    (s.fsm = .idle ∧ ∃ c, t = respond true 0#40 (setCrc c s)) ∨
    (s.fsm ≠ .idle ∧ t = respond false 0#40 (setFltSeq s)) := by
  by_cases hf : s.fsm = .idle
  · rcases hi with rfl | ⟨b, rfl⟩
    · cases (exec_crcInit_of_idle hf).symm.trans h
      exact .inl ⟨hf, _, rfl⟩
    · cases (exec_crcUpd_of_idle hf).symm.trans h
      exact .inl ⟨hf, _, rfl⟩
  · cases (exec_of_seqRefused (.inl ⟨hi, hf⟩)).symm.trans h
    exact .inr ⟨hf, rfl⟩

theorem exec_frmPush_next {b : Byte} {s t : State} (h : exec (.frmPush b) s = .next t) :
    (s.fsm ≠ .recv ∧ t = respond false 0#40 (setFltSeq s)) ∨
    (s.fsm = .recv ∧ ∃ hi : s.idx.toNat < 7, t = respond true 0#40 (pushByte ⟨s.idx.toNat, hi⟩ b s)) := by
  rcases execFrmPush_cases b s with ⟨hf, e⟩ | ⟨hi, hf, e⟩ | ⟨-, -, e⟩ <;> cases e.symm.trans h
  · exact .inl ⟨hf, rfl⟩
  · exact .inr ⟨hf, hi, rfl⟩

theorem exec_rd_next {r : Reg} {s t : State} (h : exec (Instr.rd r) s = .next t) : ∃ ok d, t = respond ok d s := by
  obtain ⟨ok, d, e⟩ := execRd_spec r s
  cases ((exec_rd r s).trans e).symm.trans h
  exact ⟨ok, d, rfl⟩

/-- The next state of an issued word that decodes to an instruction. -/
theorem exec_of_issue {w : CmdWord} {i : Instr} {s t : State} (h : issue w s = .next t) (hd : decode w = .ok i) :
    exec i s = .next t :=
  (issue_legal hd s).symm.trans h

/-! ### FSM and ERR -/

/-- The push that completes a frame latches the verdict in its own step (41_frame.md R115). -/
theorem exec_frmPush_complete {b : Byte} {s t : State} (h : exec (.frmPush b) s = .next t) (hf : s.fsm = .recv)
    (hl : s.idx.toNat + 1 = Config.len s.shape) : t.fsm = .done ∧ t.err = verdict t := by
  rcases exec_frmPush_next h with ⟨hn, -⟩ | ⟨-, hi, rfl⟩
  · exact absurd hf hn
  · exact pushByte_complete hi hl

theorem exec_frmPush_more {b : Byte} {s t : State} (h : exec (.frmPush b) s = .next t) (hf : s.fsm = .recv)
    (hl : s.idx.toNat + 1 ≠ Config.len s.shape) : t.fsm = .recv ∧ t.err = s.err := by
  rcases exec_frmPush_next h with ⟨hn, -⟩ | ⟨-, hi, rfl⟩
  · exact absurd hf hn
  · obtain ⟨hfsm, herr⟩ := pushByte_more (b := b) hi hl
    exact ⟨hfsm.trans hf, herr⟩

/-- The commands that change ERR (41_frame.md R115). -/
theorem exec_err {i : Instr} {s t : State} (h : exec i s = .next t) (herr : t.err ≠ s.err) :
    (t.err = .none ∧ ((∃ sh, i = .frmOpen sh) ∨ i = .frmAbort)) ∨
    (s.fsm = .recv ∧ t.fsm = .done ∧ t.err = verdict t ∧ ∃ b, i = .frmPush b) := by
  rcases exec_next_cases h with ⟨-, -, rfl⟩ | ⟨b, -, -, rfl⟩ | ⟨-, -, rfl⟩ | ⟨sh, rfl, rfl⟩ | ⟨rfl, rfl⟩ |
    ⟨b, -, -, rfl⟩ | ⟨b, hi, rfl, hf, -⟩ | ⟨r, ok, d, -, rfl⟩
  · exact absurd rfl herr
  · exact absurd rfl herr
  · exact absurd rfl herr
  · exact .inl ⟨rfl, .inl ⟨sh, rfl⟩⟩
  · exact .inl ⟨rfl, .inr rfl⟩
  · exact absurd rfl herr
  · by_cases hl : s.idx.toNat + 1 = Config.len s.shape
    · obtain ⟨hfsm, hv⟩ := exec_frmPush_complete h hf hl
      exact .inr ⟨hf, hfsm, hv, b, rfl⟩
    · obtain ⟨-, he⟩ := exec_frmPush_more h hf hl
      exact absurd he herr
  · exact absurd rfl herr

/-- In DONE every command but `frm.open` and `frm.abort` is a read or refused SEQ. -/
theorem done_cases {s : State} (hs : s.fsm = .done) (i : Instr) :
    (∃ sh, i = .frmOpen sh) ∨ i = .frmAbort ∨ (∃ r, i = Instr.rd r) ∨ SeqRefused i s := by
  have hidle : s.fsm ≠ .idle := by simp [hs]
  have hrecv : s.fsm ≠ .recv := by simp [hs]
  rcases reads_cases i with hn | ⟨r, -, rfl⟩
  · cases i with
    | crcInit => exact .inr (.inr (.inr (.inl ⟨.inl rfl, hidle⟩)))
    | crcUpd b => exact .inr (.inr (.inr (.inl ⟨.inr ⟨b, rfl⟩, hidle⟩)))
    | frmOpen sh => exact .inl ⟨sh, rfl⟩
    | frmPush b => exact .inr (.inr (.inr (.inr ⟨⟨b, rfl⟩, hrecv⟩)))
    | frmAbort => exact .inr (.inl rfl)
    | rdStat | rdCrc | rdCrcExp | rdCrcAct | rdRaw32 | rdRes | rdTvoc | rdSflags | rdHum | rdTemp => cases hn
  · exact .inr (.inr (.inl ⟨r, rfl⟩))

end Sys2Proof.Machine

open Sys2Proof Sys2Proof.Machine

/-- Settles O24: a push at LEN or beyond neither folds nor judges, and IDX = 7 faults. -/
theorem pushBeyondTheFrame : Obligations.PushBeyondTheFrame := by
  refine fun b s hf hl => ⟨fun h => ?_, fun h7 => exec_frmPush_of_idx_seven hf (by rw [h7]; decide)⟩
  rw [exec_frmPush_of_recv hf h, pushByte_beyond h hl]
  rfl

/-- Settles O29: the commands that change ERR, the last push, the reset edge, and in DONE the reads and refusals. -/
theorem verdictIsFixedUntilOpenOrAbort : Obligations.VerdictIsFixedUntilOpenOrAbort := by
  refine ⟨fun w s t h herr => ?_, fun w b s t h hd hf hl => exec_frmPush_complete (exec_of_issue h hd) hf hl,
    fun p s t hr h => ?_, fun w s t hs h hopen habort => ?_⟩
  · cases hd : decode w with
    | ok i =>
      simpa only [Except.ok.injEq] using exec_err (exec_of_issue h hd) herr
    | error e =>
      cases (issue_illegal hd s).symm.trans h
      exact absurd rfl herr
  · cases (clockEdge_reset hr s).symm.trans h
    rfl
  · have hquiet (i : Instr) (hd : decode w = .ok i) : (∃ r, i = Instr.rd r) ∨ SeqRefused i s := by
      rcases done_cases hs i with ⟨sh, rfl⟩ | rfl | hquiet
      · exact absurd hd (hopen sh)
      · exact absurd hd habort
      · exact hquiet
    obtain ⟨ill, seq, a, e⟩ := issue_of_quiet hquiet
    cases e.symm.trans h
    exact ⟨hs, rfl, rfl, rfl, rfl, rfl⟩

/-- Settles O46: one row of the transition table after another, by the next state of each kind of command. -/
theorem controlStateTransitions : Obligations.ControlStateTransitions := by
  refine ⟨fun w s t h => ⟨?opened, ?aborted, ?data, ?last, ?refusedPush, ?checksum, ?read, ?illegal⟩,
    fun p s t hr h => ?_⟩
  case opened =>
    rintro ⟨sh, hd⟩
    cases exec_of_issue h hd
    rfl
  case aborted =>
    intro hd
    cases exec_of_issue h hd
    rfl
  case data =>
    rintro ⟨b, hd⟩ hf hl
    exact (exec_frmPush_more (exec_of_issue h hd) hf (Nat.ne_of_lt hl)).1
  case last =>
    rintro ⟨b, hd⟩ hf hl
    exact (exec_frmPush_complete (exec_of_issue h hd) hf hl).1
  case refusedPush =>
    rintro ⟨b, hd⟩ hf
    cases (exec_frmPush_of_not_recv hf).symm.trans (exec_of_issue h hd)
    exact ⟨rfl, rfl⟩
  case checksum =>
    intro hd
    obtain ⟨i, hi, hd⟩ : ∃ i, (i = .crcInit ∨ ∃ b, i = .crcUpd b) ∧ decode w = .ok i := by
      rcases hd with hd | ⟨b, hd⟩
      · exact ⟨_, .inl rfl, hd⟩
      · exact ⟨_, .inr ⟨b, rfl⟩, hd⟩
    rcases exec_checksum_next hi (exec_of_issue h hd) with ⟨hf, c, rfl⟩ | ⟨-, rfl⟩
    · exact ⟨rfl, fun hn => absurd hf hn⟩
    · exact ⟨rfl, fun _ => rfl⟩
  case read =>
    rintro ⟨r, hd⟩
    obtain ⟨ok, d, rfl⟩ := exec_rd_next (exec_of_issue h hd)
    rfl
  case illegal =>
    rintro ⟨e, hd⟩
    cases (issue_illegal hd s).symm.trans h
    exact ⟨rfl, rfl⟩
  · cases (clockEdge_reset hr s).symm.trans h
    rfl

/-- Settles O47: the other commands keep CRC, and a push folds a data byte alone. -/
theorem onlyTheseWriteCrc : Obligations.OnlyTheseWriteCrc := by
  intro i s t h hcrc
  rcases exec_next_cases h with ⟨rfl, hf, -⟩ | ⟨b, rfl, hf, -⟩ | ⟨-, -, rfl⟩ | ⟨sh, rfl, -⟩ | ⟨rfl, -⟩ |
    ⟨b, -, -, rfl⟩ | ⟨b, hi, rfl, hf, rfl⟩ | ⟨r, ok, d, -, rfl⟩
  · exact .inl ⟨hf, .inl rfl⟩
  · exact .inl ⟨hf, .inr ⟨b, rfl⟩⟩
  · exact absurd rfl hcrc
  · exact .inr (.inl ⟨sh, rfl⟩)
  · exact .inr (.inr (.inl rfl))
  · exact absurd rfl hcrc
  · have heq := pushByte_crc ⟨s.idx.toNat, hi⟩ b s
    split at heq
    case isTrue hdata => exact .inr (.inr (.inr ⟨b, rfl, hf, hdata, heq⟩))
    case isFalse => exact absurd heq hcrc
  · exact absurd rfl hcrc

/-- Settles O48: a push writes the byte at IDX, opening and aborting clear the buffer, and no other command does. -/
theorem onlyPushAtIndexWritesABufferByte : Obligations.OnlyPushAtIndexWritesABufferByte := by
  intro i s t j h hbyte
  rcases exec_next_cases h with ⟨-, -, rfl⟩ | ⟨b, -, -, rfl⟩ | ⟨-, -, rfl⟩ | ⟨sh, rfl, rfl⟩ | ⟨rfl, rfl⟩ |
    ⟨b, -, -, rfl⟩ | ⟨b, hi, rfl, hf, rfl⟩ | ⟨r, ok, d, -, rfl⟩
  · exact absurd rfl hbyte
  · exact absurd rfl hbyte
  · exact absurd rfl hbyte
  · exact .inr ⟨.inl ⟨sh, rfl⟩, bufByte_seedFrame .recv sh s j⟩
  · exact .inr ⟨.inr rfl, bufByte_seedFrame .idle .gas5 s j⟩
  · exact absurd rfl hbyte
  · have heq := bufByte_pushByte ⟨s.idx.toNat, hi⟩ j b s
    split at heq
    case isTrue hij => exact .inl ⟨b, rfl, hf, congrArg Fin.val hij, heq⟩
    case isFalse => exact absurd heq hbyte
  · exact absurd rfl hbyte

/-- Settles O49: a checksum command writes CRC or is refused, a read writes the response alone. -/
theorem frameOfChecksumCommandsAndReads : Obligations.FrameOfChecksumCommandsAndReads := by
  intro i s t h hi
  rcases or_assoc.mpr hi with hi | ⟨r, rfl⟩
  · have hrd : ¬∃ r, i = Instr.rd r := by
      rintro ⟨r, rfl⟩
      obtain ⟨hinit, hupd, -⟩ := rd_ne r
      exact hi.elim hinit (fun ⟨b, hb⟩ => hupd b hb)
    rcases exec_checksum_next hi h with ⟨-, c, rfl⟩ | ⟨-, rfl⟩ <;>
      exact ⟨rfl, rfl, rfl, fun _ => rfl, rfl, rfl, rfl, rfl, fun h => absurd h hrd⟩
  · obtain ⟨ok, d, rfl⟩ := exec_rd_next h
    exact ⟨rfl, rfl, rfl, fun _ => rfl, rfl, rfl, rfl, rfl, fun _ => ⟨rfl, rfl⟩⟩

/-- Settles O50: opening and aborting seed the frame machinery alone; a push is refused, or stores at IDX. -/
theorem frameOfFrameCommands : Obligations.FrameOfFrameCommands := by
  refine fun i s t h => ⟨?_, ?_⟩
  · rintro (⟨sh, rfl⟩ | rfl) <;> cases h <;> exact ⟨rfl, rfl, rfl, rfl⟩
  · rintro ⟨b, rfl⟩
    rcases exec_frmPush_next h with ⟨hf, rfl⟩ | ⟨hf, hi, rfl⟩
    · exact ⟨rfl, rfl, rfl, rfl, fun _ _ => rfl, fun hr => absurd hr hf, fun _ => ⟨rfl, rfl, rfl, rfl, rfl⟩⟩
    · obtain ⟨hshape, hill, hseq, hparams, hpins, -⟩ := pushByte_fields ⟨s.idx.toNat, hi⟩ b s
      exact ⟨hshape, hill, hparams, hpins,
        fun j hj => bufByte_pushByte_of_ne (i := ⟨s.idx.toNat, hi⟩) (Fin.ne_of_val_ne hj.symm) b s,
        fun _ => hseq, fun hn => absurd hf hn⟩

end

section
/-! PROOFS. Loading a frame (41_frame.md R121, R122): the pushes of a whole frame with reads interleaved, by induction
over the commands under the invariant, and the statements O27, O28 and O30. -/

namespace Sys2Proof.Machine

open Sys2Proof

/-! ### The verdict as an equivalence (41_frame.md R114) -/

theorem verdict_eq_checksum_iff (s : State) :
    verdict s = .checksum ↔ s.crc ≠ bufByte s (checksumIndex s.shape) := by
  rcases verdict_cases s with ⟨hv, hc⟩ | ⟨hv, hc, -⟩ | ⟨hv, hc, -⟩ <;> simp [hv, hc]

theorem verdict_eq_uncal_iff (s : State) :
    verdict s = .uncal ↔ s.shape = .ht7 ∧ s.crc = bufByte s (checksumIndex s.shape) ∧
      bufByte s 0 &&& calMask s.params = 0x00#8 := by
  rcases verdict_cases s with ⟨hv, hc⟩ | ⟨hv, hc, hs, hb⟩ | ⟨hv, hc, hb⟩
  · simp [hv, hc]
  · exact iff_of_true hv ⟨hs, hc, hb⟩
  · exact iff_of_false (by simp [hv]) fun ⟨hs, _, hz⟩ => hb hs hz

/-! ### The pushes of a frame -/

/-- `t` holds what `s` held and the bytes `bs` pushed after it, the frame's shape and the fault bits as they were. -/
def Received (s t : State) (bs : List Byte) : Prop :=
  pushedBytes t = pushedBytes s ++ bs ∧ t.shape = s.shape ∧ t.fltIll = s.fltIll ∧ t.fltSeq = s.fltSeq ∧
    t.params = s.params

theorem received_pushByte (ok : Bool) (d : Data) {b : Byte} {s : State} (hi : s.idx.toNat < 7) :
    Received s (respond ok d (pushByte ⟨s.idx.toNat, hi⟩ b s)) [b] := by
  obtain ⟨hshape, hill, hseq, hparams, -⟩ := pushByte_fields ⟨s.idx.toNat, hi⟩ b s
  exact ⟨pushedBytes_pushByte hi, hshape, hill, hseq, hparams⟩

theorem Received.trans {s t u : State} {as bs : List Byte} (h : Received s t as) (h' : Received t u bs) :
    Received s u (as ++ bs) := by
  obtain ⟨hbytes, hshape, hill, hseq, hparams⟩ := h
  obtain ⟨hbytes', hshape', hill', hseq', hparams'⟩ := h'
  exact ⟨by rw [hbytes', hbytes, List.append_assoc], hshape'.trans hshape, hill'.trans hill, hseq'.trans hseq,
    hparams'.trans hparams⟩

theorem execAll_reads {cs : List Instr} (h : cs.filter (fun i => i.reads.isNone) = []) (s : State) :
    ∃ a, execAll cs s = .next { s with rsp := a } := by
  have hreads : cs ∈ Set.range (List.map Instr.rd) := by
    rw [Set.range_list_map]
    intro i hi
    rcases reads_cases i with hn | ⟨r, -, rfl⟩
    · exact absurd (by simp [hn]) (List.filter_eq_nil_iff.mp h i hi)
    · exact ⟨r, rfl⟩
  obtain ⟨rs, rfl⟩ := hreads
  exact execAll_map_rd rs s

/-- The bytes that complete a frame, pushed with reads interleaved, end in DONE. -/
theorem execAll_pushes {cs : List Instr} {bs : List Byte} {s : State} (hf : s.fsm = .recv) (hinv : StateInv s)
    (hbs : bs ≠ []) (hlen : s.idx.toNat + bs.length = Config.len s.shape)
    (hcs : cs.filter (fun i => i.reads.isNone) = bs.map .frmPush) :
    ∃ t, execAll cs s = .next t ∧ StateInv t ∧ t.fsm = .done ∧ Received s t bs := by
  induction cs generalizing bs s with
  | nil => exact absurd (List.map_eq_nil_iff.mp hcs.symm) hbs
  | cons i cs ih =>
    rcases reads_cases i with hn | ⟨r, hr, rfl⟩
    · rw [List.filter_cons_of_pos (by simp [hn])] at hcs
      obtain ⟨b, bs, rfl, rfl, hrest⟩ := List.map_eq_cons_iff.mp hcs.symm
      have hle := len_le_seven s.shape
      rw [List.length_cons] at hlen
      have hi : s.idx.toNat < 7 := by omega
      have hexec : exec (.frmPush b) s = .next (respond true 0#40 (pushByte ⟨s.idx.toNat, hi⟩ b s)) :=
        exec_frmPush_of_recv hf hi
      have hinv' := stateInv_exec hinv hexec
      have hrec := received_pushByte true 0#40 (b := b) hi
      rw [execAll_cons, hexec, andThen_next]
      by_cases hlast : bs = []
      · subst hlast
        obtain ⟨hdone, -⟩ := exec_frmPush_complete hexec hf hlen
        obtain ⟨a, e⟩ := execAll_reads hrest.symm (respond true 0#40 (pushByte ⟨s.idx.toNat, hi⟩ b s))
        exact ⟨_, e, hinv', hdone, hrec⟩
      · have hpos := List.length_pos_of_ne_nil hlast
        obtain ⟨hrecv, -⟩ := exec_frmPush_more hexec hf (by omega)
        obtain ⟨_, hshape, -⟩ := hrec
        have hidx : (pushByte ⟨s.idx.toNat, hi⟩ b s).idx.toNat = s.idx.toNat + 1 := by rw [pushByte_idx, idx_add_one hi]
        obtain ⟨t, e, htinv, hdone, hrec'⟩ := ih hrecv hinv' hlast (by rw [hshape, respond_idx, hidx]; omega) hrest.symm
        exact ⟨t, e, htinv, hdone, (received_pushByte true 0#40 hi).trans hrec'⟩
    · rw [List.filter_cons_of_neg (by simp [hr])] at hcs
      obtain ⟨ok, d, e⟩ := execRd_spec r s
      rw [execAll_cons, exec_rd, e, andThen_next]
      exact ih (s := respond ok d s) hf hinv hbs hlen hcs

/-- A whole frame from `frm.open` on. -/
theorem execAll_frame (s : State) {sh : Shape} {bs : List Byte} {cs : List Instr} (hlen : bs.length = Config.len sh)
    (hcs : cs.filter (fun i => i.reads.isNone) = bs.map .frmPush) :
    ∃ t, execAll (.frmOpen sh :: cs) s = .next t ∧ StateInv t ∧ t.fsm = .done ∧
      Received (seedFrame .recv sh s) t bs := by
  have hbs : bs ≠ [] := by
    rintro rfl
    cases sh <;> cases hlen
  rw [execAll_cons, exec_frmOpen, complete, andThen_next]
  have hopen : StateInv (respond true 0#40 (seedFrame .recv sh s)) := stateInv_seedFrame_recv sh s
  exact execAll_pushes rfl hopen hbs ((Nat.zero_add _).trans hlen) hcs

/-! ### The loaded frame -/

/-- With a bit of one byte flipped, a message has another checksum (40_checksum.md R93 item 4). -/
theorem crc8_modify_ne {bs : List Byte} {k : Nat} (hk : k < bs.length) (j : Fin 8) :
    crc8 (bs.modify k (fun b => b ^^^ (1#8 <<< j.val))) ≠ crc8 bs := by
  have hflip := crc8_ne_of_byte_ne (bs.take k) (bs.drop (k + 1)) (xor_oneHot_ne bs[k] j)
  rw [← List.drop_eq_getElem_cons hk, List.take_append_drop] at hflip
  rwa [List.modify_eq_take_cons_drop hk]

/-- The byte at an index, read from the bytes in front. -/
theorem bufByte_eq_getD {s : State} {bs : List Byte} {n : Nat} (h : s.buf.toList.take n = bs) (i : Fin 7)
    (hi : i.val < n) : bufByte s i = bs.getD i.val 0x00#8 := by
  subst h
  simp [bufByte, List.getElem?_take_of_lt hi]

theorem checksumIndex_val (sh : Shape) : (checksumIndex sh).val = Config.len sh - 1 := by cases sh <;> rfl

/-- Appended to the data bytes, the checksum byte makes CRC zero exactly when it fits (40_checksum.md R93 item 5). -/
theorem checksum_ne_iff {bs : List Byte} {n : Nat} (h : bs.length = n + 1) :
    crc8 (bs.take n) ≠ bs.getD n 0x00#8 ↔ crc8 bs ≠ 0x00#8 := by
  have hn : n < bs.length := h ▸ Nat.lt_succ_self n
  have hsplit : bs.take n ++ [bs.getD n 0x00#8] = bs := by
    rw [List.getD_eq_getElem _ _ hn, List.take_append_getElem hn, ← h, List.take_length]
  have hzero := crc8_append_eq_zero_iff (bs.take n) (bs.getD n 0x00#8)
  rw [hsplit] at hzero
  rw [ne_eq, ne_eq, hzero, eq_comm]

theorem err_eq_none {e : Err} (hchecksum : e ≠ .checksum) (huncal : e ≠ .uncal) : e = .none := by
  cases e with
  | none => rfl
  | checksum => exact absurd rfl hchecksum
  | uncal => exact absurd rfl huncal

theorem filter_map_frmPush (bs : List Byte) :
    (bs.map Instr.frmPush).filter (fun i => i.reads.isNone) = bs.map .frmPush := by
  refine List.filter_eq_self.mpr fun i hi => ?_
  obtain ⟨b, -, rfl⟩ := List.mem_map.mp hi
  rfl

end Sys2Proof.Machine

open Sys2Proof Sys2Proof.Machine

/-- Settles O27: the frame ends in DONE under the invariant, which gives IDX, CRC and the verdict; the bytes are those
pushed. -/
theorem frameAcceptance : Obligations.FrameAcceptance := by
  intro s sh bs cs hlen hcs
  obtain ⟨t, he, ⟨-, -, hinv, -⟩, hdone, hbytes, hshape, hill, hseq, hparams⟩ := execAll_frame s hlen hcs
  obtain ⟨hidx, hcrc, herr⟩ := hinv hdone
  have hshape : t.shape = sh := hshape
  rw [hshape] at hidx
  have htake : t.buf.toList.take (Config.len sh) = bs := hidx ▸ hbytes
  have hdata : t.crc = crc8 (bs.take (Config.len sh - 1)) := by
    rw [hcrc, dataBytes, hshape, ← htake, List.take_take, min_eq_left (Nat.sub_le _ _), Config.dlen]
  have hlast : bufByte t (checksumIndex t.shape) = bs.getD (Config.len sh - 1) 0x00#8 := by
    rw [hshape, ← checksumIndex_val]
    exact bufByte_eq_getD htake (checksumIndex sh) (by cases sh <;> decide)
  have hfirst : bufByte t 0 = bs.getD 0 0x00#8 := bufByte_eq_getD htake 0 (by cases sh <;> decide)
  refine ⟨t, he, hdone, hidx, hshape, htake, hdata, ?_, ?_, hill, hseq, hparams⟩
  · rw [herr, verdict_eq_checksum_iff, hdata, hlast]
  · rw [herr, verdict_eq_uncal_iff, hdata, hlast, hfirst, hshape, hparams]
    exact and_congr_right fun hs => by rw [hs]; rfl

/-- Settles O28: acceptance for the frame of the source, whose data bytes have the checksum 0xC3. -/
theorem gasFrameRoundTrip : Obligations.GasFrameRoundTrip := by
  have hcrc : crc8 [0x21#8, 0x02#8, 0x03#8, 0x76#8] = 0xC3#8 := by decide +kernel
  refine ⟨hcrc, fun s k => ?_⟩
  obtain ⟨t, he, hdone, -, hshape, htake, hdata, hchecksum, huncal, -⟩ :=
    frameAcceptance s .gas5 _ _ rfl (filter_map_frmPush [0x21#8, 0x02#8, 0x03#8, 0x76#8, k])
  have hdata : t.crc = 0xC3#8 := hdata.trans hcrc
  have hchecksum : t.err = .checksum ↔ 0xC3#8 ≠ k := hchecksum.trans (hcrc ▸ Iff.rfl)
  have huncal : t.err ≠ .uncal := fun h => nomatch (huncal.mp h).1
  have hlast : bufByte t 4 = k := bufByte_eq_getD htake 4 (by decide)
  refine ⟨t, he, hdone, ?_, readReg_eq_some.mpr ⟨gateOpen_done.mpr hdone, ?_⟩,
    readReg_eq_some.mpr ⟨gateOpen_done.mpr hdone, ?_⟩⟩
  · split
    case isTrue hk => exact err_eq_none (fun h => hchecksum.mp h hk.symm) huncal
    case isFalse hk => exact hchecksum.mpr (Ne.symm hk)
  · exact congrArg zext40 hdata
  · rw [regValue, hshape]
    exact congrArg zext40 hlast

/-- Settles O30: the whole frame has checksum zero exactly when it is not in error, and a flipped bit changes it. -/
theorem flippedBitOfAcceptedFrameIsCaught : Obligations.FlippedBitOfAcceptedFrameIsCaught := by
  intro s s' t sh bs k j hlen hk he ⟨_, herr⟩
  have hlast : Config.len sh = Config.len sh - 1 + 1 := by cases sh <;> rfl
  have hzero : crc8 bs = 0x00#8 := by
    obtain ⟨u, hu, -, -, -, -, -, hchecksum, -⟩ := frameAcceptance s sh bs _ hlen (filter_map_frmPush bs)
    cases hu.symm.trans he
    rw [checksum_ne_iff (hlen.trans hlast), herr] at hchecksum
    exact not_not.mp (mt hchecksum.mpr nofun)
  have hlen' := (List.length_modify (fun b => b ^^^ (1#8 <<< j.val)) bs k).trans hlen
  obtain ⟨t', he', hdone, -, -, -, -, hchecksum, -⟩ := frameAcceptance s' sh _ _ hlen' (filter_map_frmPush _)
  rw [checksum_ne_iff (hlen'.trans hlast)] at hchecksum
  exact ⟨t', he', hdone, hchecksum.mpr (hzero ▸ crc8_modify_ne (hlen ▸ hk) j)⟩

end

section
/-! PROOFS. What the responses do not depend on: after `frm.open` on nothing earlier but the fault bits (41_frame.md
R110), in DONE with an error on no data byte (42_readout.md R150), and the statements O31 and O32. -/

namespace Sys2Proof.Machine

open Sys2Proof

/-! ### After `frm.open` -/

/-- No response depends on the inputs to come. -/
theorem responsesTo_withPins (ws : List CmdWord) (ps : List PortIn) (s : State) :
    responsesTo ws (withPins ps s) = responsesTo ws s := by
  induction ws generalizing s with
  | nil => rfl
  | cons w ws ih =>
    rw [responsesTo, responsesTo, issue_withPins]
    cases issue w s with
    | next t => exact congrArg (t.rsp :: ·) (ih t)
    | fault r => rfl
    | refused r => rfl

theorem responsesTo_cons_of_next {w : CmdWord} {s t : State} (h : issue w s = .next t) (ws : List CmdWord) :
    responsesTo (w :: ws) s = t.rsp :: responsesTo ws t := by
  rw [responsesTo, h]

/-- A frame opened is the same whatever was before, up to the fault bits and the model's own fields. -/
theorem seedFrame_congr {s t : State} (f : Fsm) (sh : Shape) (hill : s.fltIll = t.fltIll) (hseq : s.fltSeq = t.fltSeq)
    (hparams : s.params = t.params) (a : Option Response) :
    { seedFrame f sh s with rsp := a } = withPins s.pins { seedFrame f sh t with rsp := a } := by
  simp only [seedFrame, withPins, hill, hseq, hparams]

/-! ### A rejected frame -/

/-- Two states in DONE with the same error verdict that differ in data bytes alone. -/
def RejectedTwins (s t : State) : Prop :=
  s.fsm = .done ∧ s.err ≠ .none ∧ (∃ b, t = { s with buf := b }) ∧
    bufByte s (checksumIndex s.shape) = bufByte t (checksumIndex s.shape)

theorem readReg_field_of_err {r : Reg} {sh : Shape} {s : State} (hr : gateOf r = .acc sh) (herr : s.err ≠ .none) :
    readReg r s = none := by
  rw [readReg_eq_none, hr]
  exact Bool.eq_false_of_not_eq_true fun hopen => herr (gateOpen_acc.mp hopen).2.1

/-- No register tells the twins apart: the fields are closed, and the diagnostics are equal. -/
theorem readReg_rejectedTwins {s t : State} (h : RejectedTwins s t) (r : Reg) : readReg r s = readReg r t := by
  obtain ⟨-, herr, ⟨b, rfl⟩, hbyte⟩ := h
  have hfield {r : Reg} {sh : Shape} (hr : gateOf r = .acc sh) : readReg r s = readReg r { s with buf := b } :=
    (readReg_field_of_err hr herr).trans (readReg_field_of_err (s := { s with buf := b }) hr herr).symm
  cases r with
  | stat | crc | crcExp => rfl
  | crcAct =>
    have hvalue : regValue .crcAct s = regValue .crcAct { s with buf := b } := congrArg zext40 hbyte
    rw [readReg, readReg, hvalue]
    rfl
  | raw32 | res | tvoc | sflags | hum | temp => exact hfield rfl

/-- A word gives twins the same response, and ends in the same state or in twins. -/
theorem issue_rejectedTwins {s t : State} (h : RejectedTwins s t) (w : CmdWord) :
    ∃ s' t', issue w s = .next s' ∧ issue w t = .next t' ∧ s'.rsp = t'.rsp ∧ (s' = t' ∨ RejectedTwins s' t') := by
  have hreg := readReg_rejectedTwins h
  obtain ⟨hdone, herr, ⟨b, rfl⟩, hbyte⟩ := h
  cases hd : decode w with
  | error e => exact ⟨_, _, issue_illegal hd s, issue_illegal hd _, rfl, .inr ⟨hdone, herr, ⟨b, rfl⟩, hbyte⟩⟩
  | ok i =>
    rw [issue_legal hd, issue_legal hd]
    rcases done_cases hdone i with ⟨sh, rfl⟩ | rfl | ⟨r, rfl⟩ | href
    · exact ⟨_, _, rfl, rfl, rfl, .inl rfl⟩
    · exact ⟨_, _, rfl, rfl, rfl, .inl rfl⟩
    · cases hr : readReg r s with
      | none =>
        exact ⟨_, _, exec_rd_of_none hr, exec_rd_of_none ((hreg r).symm.trans hr), rfl,
          .inr ⟨hdone, herr, ⟨b, rfl⟩, hbyte⟩⟩
      | some v =>
        exact ⟨_, _, exec_rd_of_some hr, exec_rd_of_some ((hreg r).symm.trans hr), rfl,
          .inr ⟨hdone, herr, ⟨b, rfl⟩, hbyte⟩⟩
    · exact ⟨_, _, exec_of_seqRefused href, exec_of_seqRefused (s := { s with buf := b }) href, rfl,
        .inr ⟨hdone, herr, ⟨b, rfl⟩, hbyte⟩⟩

/-- No list of words tells the twins apart. -/
theorem responsesTo_rejectedTwins {s t : State} (h : RejectedTwins s t) (ws : List CmdWord) :
    responsesTo ws s = responsesTo ws t := by
  induction ws generalizing s t with
  | nil => rfl
  | cons w ws ih =>
    obtain ⟨s', t', hs, ht, hrsp, heq | htwins⟩ := issue_rejectedTwins h w
    · rw [responsesTo_cons_of_next hs, responsesTo_cons_of_next ht, hrsp, heq]
    · rw [responsesTo_cons_of_next hs, responsesTo_cons_of_next ht, hrsp, ih htwins]

end Sys2Proof.Machine

open Sys2Proof Sys2Proof.Machine

/-- Settles O31: the opened frame is the same up to the inputs to come, which no response depends on. -/
theorem openedFrameForgetsThePast : Obligations.OpenedFrameForgetsThePast := by
  intro s t sh ws hill hseq hparams
  have hopen (u : State) : issue (encode (.frmOpen sh)) u =
      .next { seedFrame .recv sh u with rsp := some ⟨true, 0#40⟩ } :=
    issue_legal (decode_encode (.frmOpen sh)) u
  rw [responsesTo_cons_of_next (hopen s), responsesTo_cons_of_next (hopen t),
    seedFrame_congr .recv sh hill hseq hparams, responsesTo_withPins]
  rfl

/-- Settles O32: the two states are twins, which no list of words tells apart. -/
theorem rejectedFrameRevealsNoData : Obligations.RejectedFrameRevealsNoData := fun _ _ b ws hdone herr ht hbyte =>
  responsesTo_rejectedTwins ⟨hdone, herr, ⟨b, ht⟩, hbyte⟩ ws

end

section
/-! PROOFS. The two checksum diagnostics (42_readout.md R151, R152), the flag masks and the readable status byte (R147,
10_state.md R33), the fields as a tiling of the frame word (20_memory.md R52 to R54), and the statements O36, O39, O41,
O42 and O43. -/

namespace Sys2Proof.Machine

open Sys2Proof

/-! ### The checksum diagnostics -/

theorem zext40_byte_inj {a b : Byte} : zext40 a = zext40 b ↔ a = b := by
  rw [zext40, zext40, ← BitVec.toNat_inj, BitVec.toNat_setWidth_of_le (by decide),
    BitVec.toNat_setWidth_of_le (by decide), BitVec.toNat_inj]

theorem readReg_crcExp_of_done {s : State} (h : s.fsm = .done) : readReg .crcExp s = some (zext40 s.crc) :=
  readReg_eq_some.mpr ⟨gateOpen_done.mpr h, rfl⟩

theorem readReg_crcAct_of_done {s : State} (h : s.fsm = .done) :
    readReg .crcAct s = some (zext40 (bufByte s (checksumIndex s.shape))) :=
  readReg_eq_some.mpr ⟨gateOpen_done.mpr h, rfl⟩

theorem readReg_crcExp_eq_crcAct_iff {s : State} (h : s.fsm = .done) :
    readReg .crcExp s = readReg .crcAct s ↔ s.crc = bufByte s (checksumIndex s.shape) := by
  rw [readReg_crcExp_of_done h, readReg_crcAct_of_done h, Option.some_inj, zext40_byte_inj]

/-- Under the invariant ERR is CHECKSUM in DONE exactly when the checksum byte does not fit. -/
theorem err_ne_checksum_iff {s : State} (hinv : StateInv s) (h : s.fsm = .done) :
    s.err ≠ .checksum ↔ s.crc = bufByte s (checksumIndex s.shape) := by
  obtain ⟨-, -, hdone, -⟩ := hinv
  obtain ⟨-, -, herr⟩ := hdone h
  rw [herr, ne_eq, verdict_eq_checksum_iff, not_not]

/-! ### The flag masks -/

theorem and_oneHot_ne_zero_iff (b : Byte) (k : Fin 8) : b &&& 1#8 <<< k.val ≠ 0#8 ↔ b.getLsbD k.val = true := by
  rw [ne_eq, and_oneHot_eq_zero, Bool.not_eq_false]

theorem calEnabled_eq (p : Config.Params) (b : Byte) : (statusFlags p b).calEnabled = b.getLsbD p.calBit.val :=
  Bool.eq_iff_iff.mpr (decide_eq_true_iff.trans (and_oneHot_ne_zero_iff b p.calBit))

theorem busy_eq (p : Config.Params) (b : Byte) : (statusFlags p b).busy = b.getLsbD p.busyBit.val :=
  Bool.eq_iff_iff.mpr (decide_eq_true_iff.trans (and_oneHot_ne_zero_iff b p.busyBit))

theorem oneHot_mem (k : Fin 8) :
    1#8 <<< k.val ∈ [0x01#8, 0x02#8, 0x04#8, 0x08#8, 0x10#8, 0x20#8, 0x40#8, 0x80#8] := by
  revert k; decide

theorem oneHot_injective : Function.Injective (fun k : Fin 8 => 1#8 <<< k.val) := by
  have h : ∀ j k : Fin 8, 1#8 <<< j.val = 1#8 <<< k.val → j = k := by decide
  exact h

/-! ### The status byte -/

theorem readReg_sflags (s : State) :
    readReg .sflags s =
      if s.fsm = .done ∧ s.err = .none ∧ s.shape = .ht7 then some (zext40 (bufByte s 0)) else none := by
  split
  case isTrue h => exact readReg_eq_some.mpr ⟨gateOpen_acc.mpr h, rfl⟩
  case isFalse h => exact readReg_eq_none.mpr (Bool.eq_false_of_not_eq_true (mt gateOpen_acc.mp h))

/-- The HT7 verdict NONE needs the calibration flag (41_frame.md R114). -/
theorem calibrated_of_accepted {s : State} (hinv : StateInv s) (hdone : s.fsm = .done) (herr : s.err = .none)
    (hs : s.shape = .ht7) : bufByte s 0 &&& calMask s.params ≠ 0x00#8 := by
  obtain ⟨-, -, hinvDone, -⟩ := hinv
  obtain ⟨-, -, hv⟩ := hinvDone hdone
  rcases verdict_cases s with ⟨hc, -⟩ | ⟨hc, -⟩ | ⟨-, -, hcal⟩
  · cases herr.symm.trans (hv.trans hc)
  · cases herr.symm.trans (hv.trans hc)
  · exact hcal hs

/-- A status byte with the calibration flag set and the busy flag as given. -/
def statusByte (p : Config.Params) (busy : Bool) : Byte := calMask p ||| if busy then busyMask p else 0x00#8

theorem statusByte_calibrated (p : Config.Params) (busy : Bool) : statusByte p busy &&& calMask p ≠ 0x00#8 := by
  have h : ∀ (c d : Fin 8) (busy : Bool),
      (1#8 <<< c.val ||| if busy then 1#8 <<< d.val else 0x00#8) &&& 1#8 <<< c.val ≠ 0x00#8 := by decide
  exact h p.calBit p.busyBit busy

theorem statusByte_busy {p : Config.Params} (hp : paramsWellFormed p = true) (busy : Bool) :
    (statusByte p busy).getLsbD p.busyBit.val = busy := by
  have h : ∀ (c d : Fin 8) (busy : Bool), c ≠ d →
      (1#8 <<< c.val ||| if busy then 1#8 <<< d.val else 0x00#8).getLsbD d.val = busy := by decide
  exact h p.calBit p.busyBit busy (of_decide_eq_true hp)

/-- An accepted HT7 frame of that status byte and five blank data bytes. -/
def calibratedFrame (p : Config.Params) (busy : Bool) : State :=
  let c := crc8 [statusByte p busy, 0x00#8, 0x00#8, 0x00#8, 0x00#8, 0x00#8]
  { State.reset with
    fsm := .done, shape := .ht7, idx := 7#3, crc := c, params := p,
    buf := #v[statusByte p busy, 0x00#8, 0x00#8, 0x00#8, 0x00#8, 0x00#8, c] }

theorem stateInv_calibratedFrame (p : Config.Params) (busy : Bool) : StateInv (calibratedFrame p busy) := by
  have hverdict : verdict (calibratedFrame p busy) = .none := by
    rcases verdict_cases (calibratedFrame p busy) with ⟨-, hc⟩ | ⟨-, -, -, hcal⟩ | ⟨hv, -⟩
    · exact absurd rfl hc
    · exact absurd hcal (statusByte_calibrated p busy)
    · exact hv
  exact ⟨nofun, nofun, fun _ => ⟨rfl, rfl, hverdict.symm⟩, nofun, nofun⟩

theorem getLsbD_zext40 (b : Byte) (k : Fin 8) : (zext40 b).getLsbD k.val = b.getLsbD k.val := by
  rw [zext40, BitVec.getLsbD_setWidth, decide_eq_true (k.isLt.trans (by decide)), Bool.true_and]

/-! ### The frame as one number -/

theorem memRead_zero_seven (s : State) :
    memRead s 0 7 = (bufByte s 0).toNat * 2 ^ 48 + (bufByte s 1).toNat * 2 ^ 40 + (bufByte s 2).toNat * 2 ^ 32 +
      (bufByte s 3).toNat * 2 ^ 24 + (bufByte s 4).toNat * 2 ^ 16 + (bufByte s 5).toNat * 2 ^ 8 +
      (bufByte s 6).toNat := by
  rw [memRead, buf_toList]
  simp only [List.drop_zero, List.take_succ_cons, List.take_zero, List.foldl_cons, List.foldl_nil]
  omega

end Sys2Proof.Machine

open Sys2Proof Sys2Proof.Machine

/-- Settles O36: both diagnostics have the gate DONE; under the invariant they are equal exactly when the checksum byte
fits. -/
theorem checksumDiagnosticsReadableInDone : Obligations.ChecksumDiagnosticsReadableInDone := by
  intro s
  have hact (hdone : s.fsm = .done) : exec .rdCrcAct s =
      .next { s with rsp := some ⟨true, BitVec.ofNat 40 (bufByte s (checksumIndex s.shape)).toNat⟩ } :=
    (exec_rd_of_some (readReg_crcAct_of_done hdone)).trans (by rw [zext40_eq_ofNat]; rfl)
  refine ⟨fun hdone => ⟨?_, fun hs => ?_, fun hs => ?_⟩, fun hdone => ?_, fun hinv hdone => ⟨?_, ?_⟩⟩
  · exact (exec_rd_of_some (readReg_crcExp_of_done hdone)).trans (by rw [zext40_eq_ofNat]; rfl)
  · have hi : checksumIndex s.shape = 4 := congrArg checksumIndex hs
    exact hi ▸ hact hdone
  · have hi : checksumIndex s.shape = 6 := congrArg checksumIndex hs
    exact hi ▸ hact hdone
  · have hclosed : gateOpen .done s ≠ true := mt gateOpen_done.mp hdone
    exact ⟨exec_rd_closed (r := .crcExp) hclosed, exec_rd_closed (r := .crcAct) hclosed⟩
  · obtain ⟨-, -, hinvDone, -⟩ := hinv
    obtain ⟨-, hcrc, -⟩ := hinvDone hdone
    exact hcrc
  · rw [readReg_crcExp_eq_crcAct_iff hdone, err_ne_checksum_iff hinv hdone]

/-- Settles O43: an open field means an accepted frame, whose checksum byte fits. -/
theorem readableFieldsImplyEqualChecksums : Obligations.ReadableFieldsImplyEqualChecksums := by
  intro s r v hinv hr hv
  have hgate : ∀ r ∈ [Reg.raw32, .res, .tvoc, .sflags, .hum, .temp], ∃ sh ∈ [Shape.gas5, .ht7], gateOf r = .acc sh := by
    decide
  obtain ⟨sh, -, hsh⟩ := hgate r hr
  obtain ⟨hopen, -⟩ := readReg_eq_some.mp hv
  obtain ⟨hdone, herr, -⟩ := gateOpen_acc.mp (hsh ▸ hopen)
  have hfits := (err_ne_checksum_iff hinv hdone).mp (by rw [herr]; nofun)
  exact ⟨_, readReg_crcExp_of_done hdone, hfits ▸ readReg_crcAct_of_done hdone⟩

/-- Settles O42: the gate ACC(HT7), whose verdict needs the calibration flag; and an accepted frame for either busy
value. -/
theorem readableStatusByteIsCalibrated : Obligations.ReadableStatusByteIsCalibrated := by
  refine ⟨fun s => ⟨readReg_sflags s, fun v hinv hv => ?_⟩, fun p busy hp => ?_⟩
  · obtain ⟨hopen, rfl⟩ := readReg_eq_some.mp hv
    obtain ⟨hdone, herr, hs⟩ := gateOpen_acc.mp hopen
    have hcal := (and_oneHot_ne_zero_iff _ _).mp (calibrated_of_accepted hinv hdone herr hs)
    exact ⟨(getLsbD_zext40 _ _).trans hcal, (calEnabled_eq _ _).trans hcal⟩
  · refine ⟨calibratedFrame p busy, zext40 (statusByte p busy), stateInv_calibratedFrame p busy, rfl, ?_, ?_⟩
    · exact (readReg_sflags _).trans (if_pos ⟨rfl, rfl, rfl⟩)
    · rw [getLsbD_zext40, statusByte_busy hp]

/-- Settles O39: every field by its bytes, against the frame word by its bytes. -/
theorem fieldsTileTheFrameWord : Obligations.FieldsTileTheFrameWord := by
  intro s
  have h1 := (bufByte s 1).isLt
  have h2 := (bufByte s 2).isLt
  have h3 := (bufByte s 3).isLt
  have h4 := (bufByte s 4).isLt
  have h5 := (bufByte s 5).isLt
  have h6 := (bufByte s 6).isLt
  refine ⟨raw32_toNat_eq_memRead s, ?_, ?_, ?_, ?_, temperature_toNat_eq_memRead s, tvoc_toNat_eq_memRead s⟩ <;>
    simp only [memRead_zero_seven, humidity_toNat, temperature_toNat] <;> omega

/-- Settles O41: a mask is one bit, shifted by the parameter, and reads that bit. -/
theorem flagMasksAreOneHot : Obligations.FlagMasksAreOneHot := by
  refine ⟨fun p => ⟨oneHot_mem p.calBit, oneHot_mem p.busyBit, ?_, fun b => ⟨calEnabled_eq p b, busy_eq p b⟩⟩,
    by decide, by decide⟩
  rw [paramsWellFormed, decide_eq_true_iff]
  exact (oneHot_injective.ne_iff (x := p.calBit) (y := p.busyBit)).symm

end
